-- ==== Sys2Proof/Word.lean ====
section
/-!
DEFINITION. The words of the machine (a byte, a 64-bit register word) and the fixed sets of names the
encoding uses: byte orders, register numbers, access sizes, access kinds.
-/
namespace Sys2Proof

/-- The unit of data memory (10_state.md R31). -/
abbrev Byte := BitVec 8

/-- The 64 bits of a general register, and of a data address (10_state.md R20, R31). -/
abbrev Word := BitVec 64

/-- The two byte orders of a host (`HOST_ENDIAN`, 00_scope.md R6). -/
inductive Endian where
  | little
  | big
deriving DecidableEq, Repr

/-- The eleven general registers, R0 to R10 (10_state.md R20). Field values 11 to 15 name no register
(30_encoding.md R90). -/
inductive Reg where
  | r0 | r1 | r2 | r3 | r4 | r5 | r6 | r7 | r8 | r9 | r10
deriving DecidableEq, Repr

/-- The size modifiers (30_encoding.md R89). -/
inductive Size where
  | b
  | h
  | w
  | dw
deriving DecidableEq, Repr

/-- How many bytes an access of this size touches (20_memory.md R55). -/
def Size.bytes : Size → Nat
  | .b => 1
  | .h => 2
  | .w => 4
  | .dw => 8

/-- The kinds of memory request `MEM_ADMIT` distinguishes (20_memory.md R56). -/
inductive AccessKind where
  | read
  | write
  | atomic
deriving DecidableEq, Repr

end Sys2Proof
end

