-- ==== Sys2Proof/Machine/Arith.lean ====
section
/-!
DEFINITION. The arithmetic of classes ALU and ALU64 on operands of either width (40_arith_alu.md R121 to R124),
sign extension (00_scope.md R10), byte order (R11, 20_memory.md R53).
-/
namespace Sys2Proof.Machine

/-- Unsigned division; a zero divisor gives zero (40_arith_alu.md R122). -/
def udiv {w : Nat} (a b : BitVec w) : BitVec w :=
  if b = 0 then 0 else BitVec.ofNat w (a.toNat / b.toNat)

/-- Unsigned modulo; a zero divisor leaves the dividend (40_arith_alu.md R122). -/
def umod {w : Nat} (a b : BitVec w) : BitVec w :=
  if b = 0 then a else BitVec.ofNat w (a.toNat % b.toNat)

/-- Signed division, truncated toward zero and wrapping (40_arith_alu.md R123); a zero divisor gives zero (R122).
DESIGN CHOICE of the spec, D10: the source does not state the rounding of the quotient. -/
def sdiv {w : Nat} (a b : BitVec w) : BitVec w :=
  if b = 0 then 0 else BitVec.ofInt w (Int.tdiv a.toInt b.toInt)

/-- Signed modulo by truncated division (40_arith_alu.md R123); a zero divisor leaves the dividend (R122). -/
def smod {w : Nat} (a b : BitVec w) : BitVec w :=
  if b = 0 then a else BitVec.ofInt w (Int.tmod a.toInt b.toInt)

/-- The amount a 32-bit shift shifts by: the operand under the mask 0x1f (40_arith_alu.md R124). -/
def shiftAmount32 (b : BitVec 32) : Nat := (b &&& 0x1f#32).toNat

/-- The amount a 64-bit shift shifts by: the operand under the mask 0x3f (40_arith_alu.md R124). -/
def shiftAmount64 (b : BitVec 64) : Nat := (b &&& 0x3f#64).toNat

/-- LSH, 32 bits (40_arith_alu.md R124). -/
def lsh32 (a b : BitVec 32) : BitVec 32 := a <<< shiftAmount32 b

/-- RSH, 32 bits: zeros come in (40_arith_alu.md R124). -/
def rsh32 (a b : BitVec 32) : BitVec 32 := a >>> shiftAmount32 b

/-- ARSH, 32 bits: copies of bit 31 come in (40_arith_alu.md R124). -/
def arsh32 (a b : BitVec 32) : BitVec 32 := a.sshiftRight (shiftAmount32 b)

/-- LSH, 64 bits (40_arith_alu.md R124). -/
def lsh64 (a b : BitVec 64) : BitVec 64 := a <<< shiftAmount64 b

/-- RSH, 64 bits: zeros come in (40_arith_alu.md R124). -/
def rsh64 (a b : BitVec 64) : BitVec 64 := a >>> shiftAmount64 b

/-- ARSH, 64 bits: copies of bit 63 come in (40_arith_alu.md R124). -/
def arsh64 (a b : BitVec 64) : BitVec 64 := a.sshiftRight (shiftAmount64 b)

/-- The low `n` bits of `a`, sign-extended to the width of `a` (00_scope.md R10). -/
def signExtendLow {w : Nat} (n : Nat) (a : BitVec w) : BitVec w :=
  (a.setWidth n).signExtend w

/-- The low `n` bits of `a`, zero-extended to the width of `a` (00_scope.md R9). -/
def zeroExtendLow {w : Nat} (n : Nat) (a : BitVec w) : BitVec w :=
  (a.setWidth n).setWidth w

/-- The `n` low bytes of a value, the least significant first. -/
def lowBytes : Nat → Word → List Byte
  | 0, _ => []
  | n + 1, v => v.setWidth 8 :: lowBytes n (v >>> 8)

/-- The value whose bytes are these, the least significant first. -/
def ofLowBytes : List Byte → Word
  | [] => 0
  | b :: bs => (ofLowBytes bs <<< 8) ||| b.setWidth 64

/-- The `n` bytes of a value in the order memory holds them (20_memory.md R53). -/
def bytesOf (e : Endian) (n : Nat) (v : Word) : List Byte :=
  match e with
  | .little => lowBytes n v
  | .big => (lowBytes n v).reverse

/-- The value that bytes in memory order spell (20_memory.md R53). -/
def ofBytes (e : Endian) (bs : List Byte) : Word :=
  match e with
  | .little => ofLowBytes bs
  | .big => ofLowBytes bs.reverse

/-- `bswap` of the low `n` bytes, zero-extended (00_scope.md R11, 42_byteswap.md R202). -/
def bswap (n : Nat) (v : Word) : Word := ofLowBytes (lowBytes n v).reverse

/-- The low `n` bytes from host byte order to the byte order `target`, zero-extended: `htole` and `htobe` (00_scope.md
R11, 42_byteswap.md R202). -/
def hostTo (host target : Endian) (n : Nat) (v : Word) : Word :=
  if host = target then zeroExtendLow (8 * n) v else bswap n v

end Sys2Proof.Machine
end

