-- ==== Sys2Proof/Config.lean ====
section
/-!
DEFINITION. What an implementation or platform fixes (the parameters of 00_scope.md R6) as plain data, the
defaults the spec recommends for them, and the free values: constants with no body, for what the spec leaves
unconstrained.
-/
namespace Sys2Proof

/-- What a general register holds: a 64-bit value, or no value (10_state.md R22). "Unwritten" is the spec's own
state of a register; no register is unwritten in the reset state. -/
inductive RegVal where
  | holds (v : Word)
  | unwritten
deriving DecidableEq, Repr

/-- The register file (10_state.md R20). -/
structure Regs where
  r0 : RegVal
  r1 : RegVal
  r2 : RegVal
  r3 : RegVal
  r4 : RegVal
  r5 : RegVal
  r6 : RegVal
  r7 : RegVal
  r8 : RegVal
  r9 : RegVal
  r10 : RegVal
deriving DecidableEq, Repr

/-- The seven conformance groups (00_scope.md R2). -/
inductive ConformanceGroup where
  | base32
  | base64
  | atomic32
  | atomic64
  | divmul32
  | divmul64
  | packet
deriving DecidableEq, Repr

/-- `ALIGN_POLICY` (20_memory.md R54). -/
inductive AlignPolicy where
  | requireNatural
  | allow
deriving DecidableEq, Repr

/-- `FRAME_POLICY` (43_jump.md R224). -/
inductive FramePolicy where
  | freshFrame
  | none
deriving DecidableEq, Repr

/-- The two helper tables of `HELPERS` (43_jump.md R223). -/
inductive HelperTable where
  | static
  | btf
deriving DecidableEq, Repr

/-- The platform objects a wide load can name, as `UnresolvedPlatformRef` records them (60_exceptions.md R382). -/
inductive PlatformRef where
  | mapFd
  | mapIdx
  | varId
  | code
deriving DecidableEq, Repr

/-- The addresses `base` to `base + size - 1`. -/
structure Span where
  base : Nat
  size : Nat
deriving DecidableEq, Repr

/-- Does the span hold the address? -/
def Span.holds (sp : Span) (a : Nat) : Bool :=
  decide (sp.base ≤ a) && decide (a < sp.base + sp.size)

/-- One piece of `MEM_ADMIT` (20_memory.md R56): the accesses of these widths and kinds that lie inside the region.
A list of regions can spell every predicate on (address, size, kind): in the worst case one region for each admitted
triple. -/
structure Region where
  base : Nat
  size : Nat
  read : Bool
  write : Bool
  atomic : Bool
  widths : List Nat := [1, 2, 4, 8]
deriving DecidableEq, Repr

/-- One outcome of a helper's run: what it returns and the bytes it stores (43_jump.md R223). -/
structure HelperOutcome where
  ret : Word
  writes : List (Word × Byte)
deriving DecidableEq, Repr

/-- What the launch knows of a helper's run, a relation from the arguments and the memory (43_jump.md R223): on these
arguments, in a memory that reads as `sees` at the addresses it lists, the run has the outcome `first` or one of
`others`. A list of cases can spell every relation on a finite memory (log entry 6). -/
structure HelperCase where
  args : List Word
  sees : List (Word × Byte) := []
  first : HelperOutcome
  others : List HelperOutcome := []
deriving DecidableEq, Repr

/-- One helper function (43_jump.md R223): how many arguments it takes, what the launch knows of its `run` (the first
case that applies counts), and whether it returns to the next instruction (one that does not makes the launch refused, 60_exceptions.md R391). -/
structure Helper where
  nargs : Fin 6
  known : List HelperCase := []
  returnsToNext : Bool := true
deriving DecidableEq, Repr

/-- The parameters of 00_scope.md R6, and two its rules use: the memory the launch declares private to the program
(`privateMem`, 20_memory.md R63 (b)) and the addresses the platform lets helpers write (`helperMayWrite`, 43_jump.md
R223 (2)). Partial functions are finite tables; an argument a table does not list is one the function is undefined
at. -/
structure Params where
  hostEndian : Endian
  groups : List ConformanceGroup
  helpersStatic : List (BitVec 32 × Helper)
  helpersBtf : List (BitVec 32 × Helper)
  mapByFd : List (BitVec 32 × Word)
  mapByIdx : List (BitVec 32 × Word)
  mapVal : List (Word × Word)
  varAddr : List (BitVec 32 × Word)
  /-- `CODE_ADDR(pc, imm)`, 47_imm64.md R355. -/
  codeAddr : List ((Nat × BitVec 32) × Word)
  memAdmit : List Region
  privateMem : List Span
  helperMayWrite : List Span
  alignPolicy : AlignPolicy
  entryPc : Nat
  entryRegs : Regs
  maxCallDepth : Nat
  framePolicy : FramePolicy
  stackSize : Nat
  /-- `CALLEE_FP` at the depths where the platform departs from the contiguous frames of 43_jump.md R224. -/
  calleeFp : List (Nat × Word)
  r10Readonly : Bool
deriving DecidableEq, Repr

/-- `ENTRY_REGS` of the reset state: every register holds a value. R10 is one past the stack region of
`Params.recommended`; R0 to R9 hold 0. DESIGN CHOICE, unsafe: 10_state.md R36 leaves R0 and, by default, R2 to R9
unwritten and gives no number for R1 and R10 (log entry 1). -/
def Regs.entry : Regs where
  r0 := .holds 0
  r1 := .holds 0
  r2 := .holds 0
  r3 := .holds 0
  r4 := .holds 0
  r5 := .holds 0
  r6 := .holds 0
  r7 := .holds 0
  r8 := .holds 0
  r9 := .holds 0
  r10 := .holds 0x2000#64

/-- The launch registers 10_state.md R36 gives by default: R1 a value the platform chooses, R10 the top of the stack,
every other register unwritten. -/
def Regs.entryOfR36 (context top : Word) : Regs where
  r0 := .unwritten
  r1 := .holds context
  r2 := .unwritten
  r3 := .unwritten
  r4 := .unwritten
  r5 := .unwritten
  r6 := .unwritten
  r7 := .unwritten
  r8 := .unwritten
  r9 := .unwritten
  r10 := .holds top

/-- The defaults of 00_scope.md R6 and 92_eei_decisions.md (D1, D4, D5, D8, D15, D18, D19), with the stack region
`[0x1000, 0x2000)` of 95_test_vectors.md: eight frames of 512 bytes below `ENTRY_R10 = 0x2000`. -/
def Params.recommended : Params where
  hostEndian := .little
  groups := [.base32, .base64, .atomic32, .atomic64, .divmul32, .divmul64]
  helpersStatic := []
  helpersBtf := []
  mapByFd := []
  mapByIdx := []
  mapVal := []
  varAddr := []
  codeAddr := []
  memAdmit := [{ base := 0x1000, size := 0x1000, read := true, write := true, atomic := true }]
  privateMem := [{ base := 0x1000, size := 0x1000 }]
  helperMayWrite := []
  alignPolicy := .requireNatural
  entryPc := 0
  entryRegs := Regs.entry
  maxCallDepth := 7
  framePolicy := .freshFrame
  stackSize := 512
  calleeFp := []
  r10Readonly := true

/-- Free value: the byte at an address the launch provides with unspecified contents (10_state.md R36) and nothing
has written since (log entry 4). -/
opaque Config.launchByte : Word → Byte

/-- Free value: the byte the program reads at an address that is not private to it, as the environment has made it
(20_memory.md R63 (b); log entry 5). -/
opaque Config.sharedByte : (env : Nat) → Word → Byte

/-- Free value: where the environment stands after a step that leaves this memory (20_memory.md R63 (b),
60_exceptions.md R395 (b); log entry 5). It is no count of steps (60_exceptions.md R397). -/
opaque Config.envNext : (env : Nat) → List (Nat × Byte) → Nat

/-- Free value: the byte a program-local function finds in its frame where an earlier call at the same depth has used the
frame (43_jump.md R251: it is reused "with unspecified contents"; log entry 12). -/
opaque Config.frameByte : (env : Nat) → Word → Byte

/-- Free value: which of the outcomes a case lists a helper call has (43_jump.md R223 (2); log entry 6). -/
opaque Config.helperChoice : (env : Nat) → HelperTable → BitVec 32 → List Word → List (Nat × Byte) → Nat

/-- Free value: what a helper call returns where the launch knows nothing of it (43_jump.md R223; log entry 6). It may
depend on the helper, its arguments and the memory it sees. -/
opaque Config.helperResult : (env : Nat) → HelperTable → BitVec 32 → List Word → List (Nat × Byte) → Word

/-- Free value: the bytes such a call writes, before they are limited to the addresses helpers may write (43_jump.md
R223 (2); log entry 6). -/
opaque Config.helperWrites :
  (env : Nat) → HelperTable → BitVec 32 → List Word → List (Nat × Byte) → List (Word × Byte)

end Sys2Proof
end

