-- ==== Sys2Proof/Syntax.lean ====
section
/-!
DEFINITION. The instructions: one constructor for each row of spec/opcode_table.json, in its order, with the operand
fields the row leaves free. `dst` and `src` are register numbers 0 to 10, `offset` is the 16-bit field, `imm` and
`nextImm` are the 32-bit fields of the first and the second half (30_encoding.md R81, R85, R92).
-/
namespace Sys2Proof

/-- The instructions of the machine. Each constructor is named after the row's mnemonic (00_scope.md R12). -/
inductive Instr where
  -- 40_arith_alu.md: class ALU, 32-bit arithmetic
  | addKAlu (dst : Reg) (imm : BitVec 32)
  | addXAlu (dst src : Reg)
  | subKAlu (dst : Reg) (imm : BitVec 32)
  | subXAlu (dst src : Reg)
  | mulKAlu (dst : Reg) (imm : BitVec 32)
  | mulXAlu (dst src : Reg)
  | divKAlu (dst : Reg) (imm : BitVec 32)
  | divXAlu (dst src : Reg)
  | sdivKAlu (dst : Reg) (imm : BitVec 32)
  | sdivXAlu (dst src : Reg)
  | orKAlu (dst : Reg) (imm : BitVec 32)
  | orXAlu (dst src : Reg)
  | andKAlu (dst : Reg) (imm : BitVec 32)
  | andXAlu (dst src : Reg)
  | lshKAlu (dst : Reg) (imm : BitVec 32)
  | lshXAlu (dst src : Reg)
  | rshKAlu (dst : Reg) (imm : BitVec 32)
  | rshXAlu (dst src : Reg)
  | negKAlu (dst : Reg)
  | modKAlu (dst : Reg) (imm : BitVec 32)
  | modXAlu (dst src : Reg)
  | smodKAlu (dst : Reg) (imm : BitVec 32)
  | smodXAlu (dst src : Reg)
  | xorKAlu (dst : Reg) (imm : BitVec 32)
  | xorXAlu (dst src : Reg)
  | movKAlu (dst : Reg) (imm : BitVec 32)
  | movXAlu (dst src : Reg)
  | movsx8XAlu (dst src : Reg)
  | movsx16XAlu (dst src : Reg)
  | arshKAlu (dst : Reg) (imm : BitVec 32)
  | arshXAlu (dst src : Reg)
  -- 41_arith_alu64.md: class ALU64, 64-bit arithmetic
  | addKAlu64 (dst : Reg) (imm : BitVec 32)
  | addXAlu64 (dst src : Reg)
  | subKAlu64 (dst : Reg) (imm : BitVec 32)
  | subXAlu64 (dst src : Reg)
  | mulKAlu64 (dst : Reg) (imm : BitVec 32)
  | mulXAlu64 (dst src : Reg)
  | divKAlu64 (dst : Reg) (imm : BitVec 32)
  | divXAlu64 (dst src : Reg)
  | sdivKAlu64 (dst : Reg) (imm : BitVec 32)
  | sdivXAlu64 (dst src : Reg)
  | orKAlu64 (dst : Reg) (imm : BitVec 32)
  | orXAlu64 (dst src : Reg)
  | andKAlu64 (dst : Reg) (imm : BitVec 32)
  | andXAlu64 (dst src : Reg)
  | lshKAlu64 (dst : Reg) (imm : BitVec 32)
  | lshXAlu64 (dst src : Reg)
  | rshKAlu64 (dst : Reg) (imm : BitVec 32)
  | rshXAlu64 (dst src : Reg)
  | negKAlu64 (dst : Reg)
  | modKAlu64 (dst : Reg) (imm : BitVec 32)
  | modXAlu64 (dst src : Reg)
  | smodKAlu64 (dst : Reg) (imm : BitVec 32)
  | smodXAlu64 (dst src : Reg)
  | xorKAlu64 (dst : Reg) (imm : BitVec 32)
  | xorXAlu64 (dst src : Reg)
  | movKAlu64 (dst : Reg) (imm : BitVec 32)
  | movXAlu64 (dst src : Reg)
  | movsx8XAlu64 (dst src : Reg)
  | movsx16XAlu64 (dst src : Reg)
  | movsx32XAlu64 (dst src : Reg)
  | arshKAlu64 (dst : Reg) (imm : BitVec 32)
  | arshXAlu64 (dst src : Reg)
  -- 42_byteswap.md: byte swaps
  | endToLeAlu16 (dst : Reg)
  | endToLeAlu32 (dst : Reg)
  | endToLeAlu64 (dst : Reg)
  | endToBeAlu16 (dst : Reg)
  | endToBeAlu32 (dst : Reg)
  | endToBeAlu64 (dst : Reg)
  | endAlu64Swap16 (dst : Reg)
  | endAlu64Swap32 (dst : Reg)
  | endAlu64Swap64 (dst : Reg)
  -- 43_jump.md: class JMP: jumps on 64-bit operands, calls, exit
  | jaKJmp (offset : BitVec 16)
  | jeqKJmp (dst : Reg) (imm : BitVec 32) (offset : BitVec 16)
  | jeqXJmp (dst src : Reg) (offset : BitVec 16)
  | jgtKJmp (dst : Reg) (imm : BitVec 32) (offset : BitVec 16)
  | jgtXJmp (dst src : Reg) (offset : BitVec 16)
  | jgeKJmp (dst : Reg) (imm : BitVec 32) (offset : BitVec 16)
  | jgeXJmp (dst src : Reg) (offset : BitVec 16)
  | jsetKJmp (dst : Reg) (imm : BitVec 32) (offset : BitVec 16)
  | jsetXJmp (dst src : Reg) (offset : BitVec 16)
  | jneKJmp (dst : Reg) (imm : BitVec 32) (offset : BitVec 16)
  | jneXJmp (dst src : Reg) (offset : BitVec 16)
  | jsgtKJmp (dst : Reg) (imm : BitVec 32) (offset : BitVec 16)
  | jsgtXJmp (dst src : Reg) (offset : BitVec 16)
  | jsgeKJmp (dst : Reg) (imm : BitVec 32) (offset : BitVec 16)
  | jsgeXJmp (dst src : Reg) (offset : BitVec 16)
  | jltKJmp (dst : Reg) (imm : BitVec 32) (offset : BitVec 16)
  | jltXJmp (dst src : Reg) (offset : BitVec 16)
  | jleKJmp (dst : Reg) (imm : BitVec 32) (offset : BitVec 16)
  | jleXJmp (dst src : Reg) (offset : BitVec 16)
  | jsltKJmp (dst : Reg) (imm : BitVec 32) (offset : BitVec 16)
  | jsltXJmp (dst src : Reg) (offset : BitVec 16)
  | jsleKJmp (dst : Reg) (imm : BitVec 32) (offset : BitVec 16)
  | jsleXJmp (dst src : Reg) (offset : BitVec 16)
  | callHelperKJmp (imm : BitVec 32)
  | callLocalKJmp (imm : BitVec 32)
  | callBtfKJmp (imm : BitVec 32)
  | exitKJmp
  -- 44_jump32.md: class JMP32: jumps on 32-bit operands
  | jaKJmp32 (imm : BitVec 32)
  | jeqKJmp32 (dst : Reg) (imm : BitVec 32) (offset : BitVec 16)
  | jeqXJmp32 (dst src : Reg) (offset : BitVec 16)
  | jgtKJmp32 (dst : Reg) (imm : BitVec 32) (offset : BitVec 16)
  | jgtXJmp32 (dst src : Reg) (offset : BitVec 16)
  | jgeKJmp32 (dst : Reg) (imm : BitVec 32) (offset : BitVec 16)
  | jgeXJmp32 (dst src : Reg) (offset : BitVec 16)
  | jsetKJmp32 (dst : Reg) (imm : BitVec 32) (offset : BitVec 16)
  | jsetXJmp32 (dst src : Reg) (offset : BitVec 16)
  | jneKJmp32 (dst : Reg) (imm : BitVec 32) (offset : BitVec 16)
  | jneXJmp32 (dst src : Reg) (offset : BitVec 16)
  | jsgtKJmp32 (dst : Reg) (imm : BitVec 32) (offset : BitVec 16)
  | jsgtXJmp32 (dst src : Reg) (offset : BitVec 16)
  | jsgeKJmp32 (dst : Reg) (imm : BitVec 32) (offset : BitVec 16)
  | jsgeXJmp32 (dst src : Reg) (offset : BitVec 16)
  | jltKJmp32 (dst : Reg) (imm : BitVec 32) (offset : BitVec 16)
  | jltXJmp32 (dst src : Reg) (offset : BitVec 16)
  | jleKJmp32 (dst : Reg) (imm : BitVec 32) (offset : BitVec 16)
  | jleXJmp32 (dst src : Reg) (offset : BitVec 16)
  | jsltKJmp32 (dst : Reg) (imm : BitVec 32) (offset : BitVec 16)
  | jsltXJmp32 (dst src : Reg) (offset : BitVec 16)
  | jsleKJmp32 (dst : Reg) (imm : BitVec 32) (offset : BitVec 16)
  | jsleXJmp32 (dst src : Reg) (offset : BitVec 16)
  -- 45_load_store.md: regular and sign-extension loads, stores
  | memWLdx (dst src : Reg) (offset : BitVec 16)
  | memHLdx (dst src : Reg) (offset : BitVec 16)
  | memBLdx (dst src : Reg) (offset : BitVec 16)
  | memDwLdx (dst src : Reg) (offset : BitVec 16)
  | memWSt (dst : Reg) (offset : BitVec 16) (imm : BitVec 32)
  | memHSt (dst : Reg) (offset : BitVec 16) (imm : BitVec 32)
  | memBSt (dst : Reg) (offset : BitVec 16) (imm : BitVec 32)
  | memDwSt (dst : Reg) (offset : BitVec 16) (imm : BitVec 32)
  | memWStx (dst src : Reg) (offset : BitVec 16)
  | memHStx (dst src : Reg) (offset : BitVec 16)
  | memBStx (dst src : Reg) (offset : BitVec 16)
  | memDwStx (dst src : Reg) (offset : BitVec 16)
  | memsxWLdx (dst src : Reg) (offset : BitVec 16)
  | memsxHLdx (dst src : Reg) (offset : BitVec 16)
  | memsxBLdx (dst src : Reg) (offset : BitVec 16)
  -- 46_atomic.md: atomic operations
  | atomicWStxAdd (dst src : Reg) (offset : BitVec 16)
  | atomicDwStxAdd (dst src : Reg) (offset : BitVec 16)
  | atomicWStxAddFetch (dst src : Reg) (offset : BitVec 16)
  | atomicDwStxAddFetch (dst src : Reg) (offset : BitVec 16)
  | atomicWStxOr (dst src : Reg) (offset : BitVec 16)
  | atomicDwStxOr (dst src : Reg) (offset : BitVec 16)
  | atomicWStxOrFetch (dst src : Reg) (offset : BitVec 16)
  | atomicDwStxOrFetch (dst src : Reg) (offset : BitVec 16)
  | atomicWStxAnd (dst src : Reg) (offset : BitVec 16)
  | atomicDwStxAnd (dst src : Reg) (offset : BitVec 16)
  | atomicWStxAndFetch (dst src : Reg) (offset : BitVec 16)
  | atomicDwStxAndFetch (dst src : Reg) (offset : BitVec 16)
  | atomicWStxXor (dst src : Reg) (offset : BitVec 16)
  | atomicDwStxXor (dst src : Reg) (offset : BitVec 16)
  | atomicWStxXorFetch (dst src : Reg) (offset : BitVec 16)
  | atomicDwStxXorFetch (dst src : Reg) (offset : BitVec 16)
  | atomicWStxXchg (dst src : Reg) (offset : BitVec 16)
  | atomicDwStxXchg (dst src : Reg) (offset : BitVec 16)
  | atomicWStxCmpxchg (dst src : Reg) (offset : BitVec 16)
  | atomicDwStxCmpxchg (dst src : Reg) (offset : BitVec 16)
  -- 47_imm64.md: 64-bit immediates (wide instructions)
  | immDwLd0 (dst : Reg) (imm nextImm : BitVec 32)
  | immDwLd1 (dst : Reg) (imm : BitVec 32)
  | immDwLd2 (dst : Reg) (imm nextImm : BitVec 32)
  | immDwLd3 (dst : Reg) (imm : BitVec 32)
  | immDwLd4 (dst : Reg) (imm : BitVec 32)
  | immDwLd5 (dst : Reg) (imm : BitVec 32)
  | immDwLd6 (dst : Reg) (imm nextImm : BitVec 32)
  -- 48_packet.md: legacy packet access
  | absWLd (imm : BitVec 32)
  | absHLd (imm : BitVec 32)
  | absBLd (imm : BitVec 32)
  | indWLd (src : Reg) (imm : BitVec 32)
  | indHLd (src : Reg) (imm : BitVec 32)
  | indBLd (src : Reg) (imm : BitVec 32)
deriving DecidableEq, Repr

end Sys2Proof
end

