-- ==== Sys2Proof/Decode.lean ====
section
/-!
DEFINITION. The decoder, total on any bytes and rejecting by name, and after it the encoder, both written from the
encoding tables of 30_encoding.md: a slot of 8 bytes, the fields it holds on either kind of host (R82, R83), the opcode
map (R93 to R95), the words of a well-formed instruction (R81, R85).
-/
namespace Sys2Proof

/-- A 64-bit slot of a program, as its 8 bytes in the order they are stored (30_encoding.md R80, R81). -/
structure Slot where
  b0 : Byte
  b1 : Byte
  b2 : Byte
  b3 : Byte
  b4 : Byte
  b5 : Byte
  b6 : Byte
  b7 : Byte
deriving DecidableEq, Repr

/-- The slot of eight zero bytes. -/
def Slot.zero : Slot := ⟨0, 0, 0, 0, 0, 0, 0, 0⟩

/-- The five fields of a basic instruction (30_encoding.md R81). -/
structure Fields where
  opcode : BitVec 8
  dst : BitVec 4
  src : BitVec 4
  offset : BitVec 16
  imm : BitVec 32
deriving DecidableEq, Repr

/-- The fields of a slot on a host of this byte order (30_encoding.md R82, R83). -/
def Slot.fields (e : Endian) (s : Slot) : Fields :=
  match e with
  | .little =>
    { opcode := s.b0, src := s.b1.extractLsb' 4 4, dst := s.b1.extractLsb' 0 4,
      offset := s.b3 ++ s.b2, imm := s.b7 ++ s.b6 ++ s.b5 ++ s.b4 }
  | .big =>
    { opcode := s.b0, dst := s.b1.extractLsb' 4 4, src := s.b1.extractLsb' 0 4,
      offset := s.b2 ++ s.b3, imm := s.b4 ++ s.b5 ++ s.b6 ++ s.b7 }

/-- The slot that holds these fields on a host of this byte order (30_encoding.md R82, R83). -/
def Fields.slot (e : Endian) (f : Fields) : Slot :=
  match e with
  | .little =>
    { b0 := f.opcode, b1 := f.src ++ f.dst,
      b2 := f.offset.extractLsb' 0 8, b3 := f.offset.extractLsb' 8 8,
      b4 := f.imm.extractLsb' 0 8, b5 := f.imm.extractLsb' 8 8,
      b6 := f.imm.extractLsb' 16 8, b7 := f.imm.extractLsb' 24 8 }
  | .big =>
    { b0 := f.opcode, b1 := f.dst ++ f.src,
      b2 := f.offset.extractLsb' 8 8, b3 := f.offset.extractLsb' 0 8,
      b4 := f.imm.extractLsb' 24 8, b5 := f.imm.extractLsb' 16 8,
      b6 := f.imm.extractLsb' 8 8, b7 := f.imm.extractLsb' 0 8 }

/-- The canonical instruction word `W` (30_encoding.md R81); of the second slot of a wide instruction, `W2` (R85). -/
def Fields.word (f : Fields) : Word :=
  f.imm ++ f.offset ++ f.src ++ f.dst ++ f.opcode

/-- The fields a canonical word is built from (30_encoding.md R81). -/
def Fields.ofWord (w : Word) : Fields where
  opcode := w.extractLsb' 0 8
  dst := w.extractLsb' 8 4
  src := w.extractLsb' 12 4
  offset := w.extractLsb' 16 16
  imm := w.extractLsb' 32 32

/-- Does the opcode byte call for the wide encoding? The only wide opcode is `{IMM, DW, LD}` (30_encoding.md R80). -/
def Slot.isWide (s : Slot) : Bool := decide (s.b0 = 0x18#8)

/-- The number of a register in an instruction field. -/
def Reg.num : Reg → BitVec 4
  | .r0 => 0
  | .r1 => 1
  | .r2 => 2
  | .r3 => 3
  | .r4 => 4
  | .r5 => 5
  | .r6 => 6
  | .r7 => 7
  | .r8 => 8
  | .r9 => 9
  | .r10 => 10

/-- The register a field names; 11 to 15 name none (30_encoding.md R90). -/
def regOf (n : BitVec 4) : Option Reg :=
  match n.toNat with
  | 0 => some .r0
  | 1 => some .r1
  | 2 => some .r2
  | 3 => some .r3
  | 4 => some .r4
  | 5 => some .r5
  | 6 => some .r6
  | 7 => some .r7
  | 8 => some .r8
  | 9 => some .r9
  | 10 => some .r10
  | _ => none

/-- Why a slot spells no instruction. The machine raises one fault for all of them but `truncated` (30_encoding.md
R96, R98). -/
inductive DecodeError where
  /-- A wide instruction whose second slot is missing (R98 (3)). -/
  | truncated
  /-- An opcode byte the opcode map does not list (R96 (a), (b), (e) to (k)). -/
  | unknownOpcode
  /-- A listed opcode whose `offset`, `imm` or `src_reg` selects no operation (R96 (c), (d), (e), (g), (h), (k)). -/
  | badSelector
  /-- A field the instruction does not use is not zero (R88, R96 (l)). -/
  | unusedField
  /-- A register number above 10 (R90, R96 (l)). -/
  | badRegister
deriving DecidableEq, Repr

/-- The answer of the decoder. -/
abbrev Decoded := Except DecodeError Instr

/-- Go on if the unused fields are zero (30_encoding.md R88). -/
def unusedZero (zero : Bool) (k : Decoded) : Decoded :=
  if zero then k else .error .unusedField

/-- Go on with the register a field names (30_encoding.md R90). -/
def withReg (n : BitVec 4) (k : Reg → Decoded) : Decoded :=
  match regOf n with
  | some r => k r
  | none => .error .badRegister

/-- Arithmetic with an immediate; the caller has dealt with `offset` (30_encoding.md R88). -/
def kForm (a : Fields) (mk : Reg → BitVec 32 → Instr) : Decoded :=
  unusedZero (decide (a.src = 0)) <| withReg a.dst fun d => .ok (mk d a.imm)

/-- Arithmetic with a register source; the caller has dealt with `offset` (30_encoding.md R88). -/
def xForm (a : Fields) (mk : Reg → Reg → Instr) : Decoded :=
  unusedZero (decide (a.imm = 0)) <| withReg a.dst fun d => withReg a.src fun r => .ok (mk d r)

/-- NEG: `src_reg`, `offset` and `imm` are unused (30_encoding.md R88). -/
def negForm (a : Fields) (mk : Reg → Instr) : Decoded :=
  unusedZero (decide (a.src = 0) && decide (a.offset = 0) && decide (a.imm = 0)) <|
    withReg a.dst fun d => .ok (mk d)

/-- Byte swap: `src_reg` and `offset` are unused, `imm` selects the width (42_byteswap.md R200, R202). -/
def swapForm (a : Fields) (mk16 mk32 mk64 : Reg → Instr) : Decoded :=
  match a.imm.toNat with
  | 16 => unusedZero (decide (a.src = 0) && decide (a.offset = 0)) <| withReg a.dst fun d => .ok (mk16 d)
  | 32 => unusedZero (decide (a.src = 0) && decide (a.offset = 0)) <| withReg a.dst fun d => .ok (mk32 d)
  | 64 => unusedZero (decide (a.src = 0) && decide (a.offset = 0)) <| withReg a.dst fun d => .ok (mk64 d)
  | _ => .error .badSelector

/-- An arithmetic row whose `offset` must be 0 (30_encoding.md R93). -/
def noOffset (a : Fields) (k : Decoded) : Decoded :=
  unusedZero (decide (a.offset = 0)) k

/-- The codes whose `offset` selects between an unsigned (0) and a signed (1) operation (30_encoding.md R93). -/
def signSelect (a : Fields) (unsigned signed : Decoded) : Decoded :=
  match a.offset.toNat with
  | 0 => unsigned
  | 1 => signed
  | _ => .error .badSelector

/-- `JA` of class JMP: only `offset` is used (30_encoding.md R88). -/
def jaForm (a : Fields) (mk : BitVec 16 → Instr) : Decoded :=
  unusedZero (decide (a.dst = 0) && decide (a.src = 0) && decide (a.imm = 0)) <| .ok (mk a.offset)

/-- `JA` of class JMP32: only `imm` is used (30_encoding.md R88). -/
def ja32Form (a : Fields) (mk : BitVec 32 → Instr) : Decoded :=
  unusedZero (decide (a.dst = 0) && decide (a.src = 0) && decide (a.offset = 0)) <| .ok (mk a.imm)

/-- A conditional jump against an immediate: `src_reg` is unused (30_encoding.md R88). -/
def jumpKForm (a : Fields) (mk : Reg → BitVec 32 → BitVec 16 → Instr) : Decoded :=
  unusedZero (decide (a.src = 0)) <| withReg a.dst fun d => .ok (mk d a.imm a.offset)

/-- A conditional jump against a register: `imm` is unused (30_encoding.md R88). -/
def jumpXForm (a : Fields) (mk : Reg → Reg → BitVec 16 → Instr) : Decoded :=
  unusedZero (decide (a.imm = 0)) <|
    withReg a.dst fun d => withReg a.src fun r => .ok (mk d r a.offset)

/-- A call: `dst_reg` and `offset` are unused, `src_reg` has selected the kind (30_encoding.md R88, R94). -/
def callForm (a : Fields) (mk : BitVec 32 → Instr) : Decoded :=
  unusedZero (decide (a.dst = 0) && decide (a.offset = 0)) <| .ok (mk a.imm)

/-- `EXIT` uses no field (30_encoding.md R88). -/
def exitForm (a : Fields) (i : Instr) : Decoded :=
  unusedZero (decide (a.dst = 0) && decide (a.src = 0) && decide (a.offset = 0) && decide (a.imm = 0)) <|
    .ok i

/-- A load, or a store of a register: `imm` is unused (30_encoding.md R88). -/
def memForm (a : Fields) (mk : Reg → Reg → BitVec 16 → Instr) : Decoded :=
  unusedZero (decide (a.imm = 0)) <|
    withReg a.dst fun d => withReg a.src fun r => .ok (mk d r a.offset)

/-- A store of an immediate: `src_reg` is unused (30_encoding.md R88). -/
def storeImmForm (a : Fields) (mk : Reg → BitVec 16 → BitVec 32 → Instr) : Decoded :=
  unusedZero (decide (a.src = 0)) <| withReg a.dst fun d => .ok (mk d a.offset a.imm)

/-- An atomic: no unused field, `imm` has selected the operation (30_encoding.md R88; 46_atomic.md R321). -/
def atomicForm (a : Fields) (mk : Reg → Reg → BitVec 16 → Instr) : Decoded :=
  withReg a.dst fun d => withReg a.src fun r => .ok (mk d r a.offset)

/-- A wide load that uses both immediates: `offset` and the reserved 32 bits are unused (47_imm64.md R350). -/
def wideForm (a b : Fields) (mk : Reg → BitVec 32 → BitVec 32 → Instr) : Decoded :=
  unusedZero (decide (a.offset = 0) && decide (b.opcode = 0) && decide (b.dst = 0) && decide (b.src = 0)
      && decide (b.offset = 0)) <|
    withReg a.dst fun d => .ok (mk d a.imm b.imm)

/-- A wide load that does not use `next_imm`, which must then be zero too (47_imm64.md R350). -/
def wideForm1 (a b : Fields) (mk : Reg → BitVec 32 → Instr) : Decoded :=
  unusedZero (decide (a.offset = 0) && decide (b.opcode = 0) && decide (b.dst = 0) && decide (b.src = 0)
      && decide (b.offset = 0) && decide (b.imm = 0)) <|
    withReg a.dst fun d => .ok (mk d a.imm)

/-- Absolute packet access: only `imm` is used (48_packet.md R365). -/
def absForm (a : Fields) (mk : BitVec 32 → Instr) : Decoded :=
  unusedZero (decide (a.dst = 0) && decide (a.src = 0) && decide (a.offset = 0)) <| .ok (mk a.imm)

/-- Indirect packet access: `dst_reg` and `offset` are unused (48_packet.md R365). -/
def indForm (a : Fields) (mk : Reg → BitVec 32 → Instr) : Decoded :=
  unusedZero (decide (a.dst = 0) && decide (a.offset = 0)) <|
    withReg a.src fun r => .ok (mk r a.imm)

/-- The opcode bytes of class ALU (30_encoding.md R93 and 42_byteswap.md R201, R202). -/
def decodeAlu (a : Fields) : Decoded :=
  match a.opcode.toNat with
  | 0x04 => noOffset a <| kForm a .addKAlu
  | 0x0c => noOffset a <| xForm a .addXAlu
  | 0x14 => noOffset a <| kForm a .subKAlu
  | 0x1c => noOffset a <| xForm a .subXAlu
  | 0x24 => noOffset a <| kForm a .mulKAlu
  | 0x2c => noOffset a <| xForm a .mulXAlu
  | 0x34 => signSelect a (kForm a .divKAlu) (kForm a .sdivKAlu)
  | 0x3c => signSelect a (xForm a .divXAlu) (xForm a .sdivXAlu)
  | 0x44 => noOffset a <| kForm a .orKAlu
  | 0x4c => noOffset a <| xForm a .orXAlu
  | 0x54 => noOffset a <| kForm a .andKAlu
  | 0x5c => noOffset a <| xForm a .andXAlu
  | 0x64 => noOffset a <| kForm a .lshKAlu
  | 0x6c => noOffset a <| xForm a .lshXAlu
  | 0x74 => noOffset a <| kForm a .rshKAlu
  | 0x7c => noOffset a <| xForm a .rshXAlu
  | 0x84 => negForm a .negKAlu
  | 0x94 => signSelect a (kForm a .modKAlu) (kForm a .smodKAlu)
  | 0x9c => signSelect a (xForm a .modXAlu) (xForm a .smodXAlu)
  | 0xa4 => noOffset a <| kForm a .xorKAlu
  | 0xac => noOffset a <| xForm a .xorXAlu
  | 0xb4 => noOffset a <| kForm a .movKAlu
  | 0xbc =>
    match a.offset.toNat with
    | 0 => xForm a .movXAlu
    | 8 => xForm a .movsx8XAlu
    | 16 => xForm a .movsx16XAlu
    | _ => .error .badSelector
  | 0xc4 => noOffset a <| kForm a .arshKAlu
  | 0xcc => noOffset a <| xForm a .arshXAlu
  | 0xd4 => swapForm a .endToLeAlu16 .endToLeAlu32 .endToLeAlu64
  | 0xdc => swapForm a .endToBeAlu16 .endToBeAlu32 .endToBeAlu64
  | _ => .error .unknownOpcode

/-- The opcode bytes of class ALU64 (30_encoding.md R93 and 42_byteswap.md R201, R202). -/
def decodeAlu64 (a : Fields) : Decoded :=
  match a.opcode.toNat with
  | 0x07 => noOffset a <| kForm a .addKAlu64
  | 0x0f => noOffset a <| xForm a .addXAlu64
  | 0x17 => noOffset a <| kForm a .subKAlu64
  | 0x1f => noOffset a <| xForm a .subXAlu64
  | 0x27 => noOffset a <| kForm a .mulKAlu64
  | 0x2f => noOffset a <| xForm a .mulXAlu64
  | 0x37 => signSelect a (kForm a .divKAlu64) (kForm a .sdivKAlu64)
  | 0x3f => signSelect a (xForm a .divXAlu64) (xForm a .sdivXAlu64)
  | 0x47 => noOffset a <| kForm a .orKAlu64
  | 0x4f => noOffset a <| xForm a .orXAlu64
  | 0x57 => noOffset a <| kForm a .andKAlu64
  | 0x5f => noOffset a <| xForm a .andXAlu64
  | 0x67 => noOffset a <| kForm a .lshKAlu64
  | 0x6f => noOffset a <| xForm a .lshXAlu64
  | 0x77 => noOffset a <| kForm a .rshKAlu64
  | 0x7f => noOffset a <| xForm a .rshXAlu64
  | 0x87 => negForm a .negKAlu64
  | 0x97 => signSelect a (kForm a .modKAlu64) (kForm a .smodKAlu64)
  | 0x9f => signSelect a (xForm a .modXAlu64) (xForm a .smodXAlu64)
  | 0xa7 => noOffset a <| kForm a .xorKAlu64
  | 0xaf => noOffset a <| xForm a .xorXAlu64
  | 0xb7 => noOffset a <| kForm a .movKAlu64
  | 0xbf =>
    match a.offset.toNat with
    | 0 => xForm a .movXAlu64
    | 8 => xForm a .movsx8XAlu64
    | 16 => xForm a .movsx16XAlu64
    | 32 => xForm a .movsx32XAlu64
    | _ => .error .badSelector
  | 0xc7 => noOffset a <| kForm a .arshKAlu64
  | 0xcf => noOffset a <| xForm a .arshXAlu64
  | 0xd7 => swapForm a .endAlu64Swap16 .endAlu64Swap32 .endAlu64Swap64
  | _ => .error .unknownOpcode

/-- The opcode bytes of class JMP (30_encoding.md R94). -/
def decodeJmp (a : Fields) : Decoded :=
  match a.opcode.toNat with
  | 0x05 => jaForm a .jaKJmp
  | 0x15 => jumpKForm a .jeqKJmp
  | 0x1d => jumpXForm a .jeqXJmp
  | 0x25 => jumpKForm a .jgtKJmp
  | 0x2d => jumpXForm a .jgtXJmp
  | 0x35 => jumpKForm a .jgeKJmp
  | 0x3d => jumpXForm a .jgeXJmp
  | 0x45 => jumpKForm a .jsetKJmp
  | 0x4d => jumpXForm a .jsetXJmp
  | 0x55 => jumpKForm a .jneKJmp
  | 0x5d => jumpXForm a .jneXJmp
  | 0x65 => jumpKForm a .jsgtKJmp
  | 0x6d => jumpXForm a .jsgtXJmp
  | 0x75 => jumpKForm a .jsgeKJmp
  | 0x7d => jumpXForm a .jsgeXJmp
  | 0x85 =>
    match a.src.toNat with
    | 0 => callForm a .callHelperKJmp
    | 1 => callForm a .callLocalKJmp
    | 2 => callForm a .callBtfKJmp
    | _ => .error .badSelector
  | 0x95 => exitForm a .exitKJmp
  | 0xa5 => jumpKForm a .jltKJmp
  | 0xad => jumpXForm a .jltXJmp
  | 0xb5 => jumpKForm a .jleKJmp
  | 0xbd => jumpXForm a .jleXJmp
  | 0xc5 => jumpKForm a .jsltKJmp
  | 0xcd => jumpXForm a .jsltXJmp
  | 0xd5 => jumpKForm a .jsleKJmp
  | 0xdd => jumpXForm a .jsleXJmp
  | _ => .error .unknownOpcode

/-- The opcode bytes of class JMP32 (30_encoding.md R94). -/
def decodeJmp32 (a : Fields) : Decoded :=
  match a.opcode.toNat with
  | 0x06 => ja32Form a .jaKJmp32
  | 0x16 => jumpKForm a .jeqKJmp32
  | 0x1e => jumpXForm a .jeqXJmp32
  | 0x26 => jumpKForm a .jgtKJmp32
  | 0x2e => jumpXForm a .jgtXJmp32
  | 0x36 => jumpKForm a .jgeKJmp32
  | 0x3e => jumpXForm a .jgeXJmp32
  | 0x46 => jumpKForm a .jsetKJmp32
  | 0x4e => jumpXForm a .jsetXJmp32
  | 0x56 => jumpKForm a .jneKJmp32
  | 0x5e => jumpXForm a .jneXJmp32
  | 0x66 => jumpKForm a .jsgtKJmp32
  | 0x6e => jumpXForm a .jsgtXJmp32
  | 0x76 => jumpKForm a .jsgeKJmp32
  | 0x7e => jumpXForm a .jsgeXJmp32
  | 0xa6 => jumpKForm a .jltKJmp32
  | 0xae => jumpXForm a .jltXJmp32
  | 0xb6 => jumpKForm a .jleKJmp32
  | 0xbe => jumpXForm a .jleXJmp32
  | 0xc6 => jumpKForm a .jsltKJmp32
  | 0xce => jumpXForm a .jsltXJmp32
  | 0xd6 => jumpKForm a .jsleKJmp32
  | 0xde => jumpXForm a .jsleXJmp32
  | _ => .error .unknownOpcode

/-- The opcode bytes of class LDX (30_encoding.md R95). -/
def decodeLdx (a : Fields) : Decoded :=
  match a.opcode.toNat with
  | 0x61 => memForm a .memWLdx
  | 0x69 => memForm a .memHLdx
  | 0x71 => memForm a .memBLdx
  | 0x79 => memForm a .memDwLdx
  | 0x81 => memForm a .memsxWLdx
  | 0x89 => memForm a .memsxHLdx
  | 0x91 => memForm a .memsxBLdx
  | _ => .error .unknownOpcode

/-- The opcode bytes of class ST (30_encoding.md R95). -/
def decodeSt (a : Fields) : Decoded :=
  match a.opcode.toNat with
  | 0x62 => storeImmForm a .memWSt
  | 0x6a => storeImmForm a .memHSt
  | 0x72 => storeImmForm a .memBSt
  | 0x7a => storeImmForm a .memDwSt
  | _ => .error .unknownOpcode

/-- The opcode bytes of class STX (30_encoding.md R95 and 46_atomic.md R321). -/
def decodeStx (a : Fields) : Decoded :=
  match a.opcode.toNat with
  | 0x63 => memForm a .memWStx
  | 0x6b => memForm a .memHStx
  | 0x73 => memForm a .memBStx
  | 0x7b => memForm a .memDwStx
  | 0xc3 =>
    match a.imm.toNat with
    | 0x00 => atomicForm a .atomicWStxAdd
    | 0x01 => atomicForm a .atomicWStxAddFetch
    | 0x40 => atomicForm a .atomicWStxOr
    | 0x41 => atomicForm a .atomicWStxOrFetch
    | 0x50 => atomicForm a .atomicWStxAnd
    | 0x51 => atomicForm a .atomicWStxAndFetch
    | 0xa0 => atomicForm a .atomicWStxXor
    | 0xa1 => atomicForm a .atomicWStxXorFetch
    | 0xe1 => atomicForm a .atomicWStxXchg
    | 0xf1 => atomicForm a .atomicWStxCmpxchg
    | _ => .error .badSelector
  | 0xdb =>
    match a.imm.toNat with
    | 0x00 => atomicForm a .atomicDwStxAdd
    | 0x01 => atomicForm a .atomicDwStxAddFetch
    | 0x40 => atomicForm a .atomicDwStxOr
    | 0x41 => atomicForm a .atomicDwStxOrFetch
    | 0x50 => atomicForm a .atomicDwStxAnd
    | 0x51 => atomicForm a .atomicDwStxAndFetch
    | 0xa0 => atomicForm a .atomicDwStxXor
    | 0xa1 => atomicForm a .atomicDwStxXorFetch
    | 0xe1 => atomicForm a .atomicDwStxXchg
    | 0xf1 => atomicForm a .atomicDwStxCmpxchg
    | _ => .error .badSelector
  | _ => .error .unknownOpcode

/-- The subtypes of `{IMM, DW, LD}` (47_imm64.md R350); `b` holds the fields of the second slot. -/
def decodeWide (a b : Fields) : Decoded :=
  match a.src.toNat with
  | 0 => wideForm a b .immDwLd0
  | 1 => wideForm1 a b .immDwLd1
  | 2 => wideForm a b .immDwLd2
  | 3 => wideForm1 a b .immDwLd3
  | 4 => wideForm1 a b .immDwLd4
  | 5 => wideForm1 a b .immDwLd5
  | 6 => wideForm a b .immDwLd6
  | _ => .error .badSelector

/-- The opcode bytes of class LD (30_encoding.md R95). -/
def decodeLd (a : Fields) (second : Option Fields) : Decoded :=
  match a.opcode.toNat with
  | 0x18 =>
    match second with
    | some b => decodeWide a b
    | none => .error .truncated
  | 0x20 => absForm a .absWLd
  | 0x28 => absForm a .absHLd
  | 0x30 => absForm a .absBLd
  | 0x40 => indForm a .indWLd
  | 0x48 => indForm a .indHLd
  | 0x50 => indForm a .indBLd
  | _ => .error .unknownOpcode

/-- Decoding, by instruction class, the three least significant bits of the opcode (30_encoding.md R86, R98). `second`
holds the fields of the next slot, if the program has one; only a wide instruction looks at it. -/
def decode (a : Fields) (second : Option Fields) : Decoded :=
  match a.opcode.toNat % 8 with
  | 0 => decodeLd a second
  | 1 => decodeLdx a
  | 2 => decodeSt a
  | 3 => decodeStx a
  | 4 => decodeAlu a
  | 5 => decodeJmp a
  | 6 => decodeJmp32 a
  | _ => decodeAlu64 a

/-- Decoding the bytes of a slot and, for a wide instruction, of the next one (30_encoding.md R98 (2) to (4)). -/
def decodeSlots (e : Endian) (first : Slot) (second : Option Slot) : Decoded :=
  decode (first.fields e) (second.map (Slot.fields e))

/-! ### The encoder -/

/-- The fields of a basic instruction with this opcode and every other field zero. -/
def Fields.ofOpcode (opcode : BitVec 8) : Fields := { opcode, dst := 0, src := 0, offset := 0, imm := 0 }

/-- The fields of an instruction's first slot: the `match` of its row in spec/opcode_table.json with the operands in
their fields (30_encoding.md R81, R93 to R95). -/
def Instr.fields : Instr → Fields
  | .addKAlu dst imm => ⟨0x04, dst.num, 0, 0, imm⟩
  | .addXAlu dst src => ⟨0x0c, dst.num, src.num, 0, 0⟩
  | .subKAlu dst imm => ⟨0x14, dst.num, 0, 0, imm⟩
  | .subXAlu dst src => ⟨0x1c, dst.num, src.num, 0, 0⟩
  | .mulKAlu dst imm => ⟨0x24, dst.num, 0, 0, imm⟩
  | .mulXAlu dst src => ⟨0x2c, dst.num, src.num, 0, 0⟩
  | .divKAlu dst imm => ⟨0x34, dst.num, 0, 0, imm⟩
  | .divXAlu dst src => ⟨0x3c, dst.num, src.num, 0, 0⟩
  | .sdivKAlu dst imm => ⟨0x34, dst.num, 0, 1, imm⟩
  | .sdivXAlu dst src => ⟨0x3c, dst.num, src.num, 1, 0⟩
  | .orKAlu dst imm => ⟨0x44, dst.num, 0, 0, imm⟩
  | .orXAlu dst src => ⟨0x4c, dst.num, src.num, 0, 0⟩
  | .andKAlu dst imm => ⟨0x54, dst.num, 0, 0, imm⟩
  | .andXAlu dst src => ⟨0x5c, dst.num, src.num, 0, 0⟩
  | .lshKAlu dst imm => ⟨0x64, dst.num, 0, 0, imm⟩
  | .lshXAlu dst src => ⟨0x6c, dst.num, src.num, 0, 0⟩
  | .rshKAlu dst imm => ⟨0x74, dst.num, 0, 0, imm⟩
  | .rshXAlu dst src => ⟨0x7c, dst.num, src.num, 0, 0⟩
  | .negKAlu dst => ⟨0x84, dst.num, 0, 0, 0⟩
  | .modKAlu dst imm => ⟨0x94, dst.num, 0, 0, imm⟩
  | .modXAlu dst src => ⟨0x9c, dst.num, src.num, 0, 0⟩
  | .smodKAlu dst imm => ⟨0x94, dst.num, 0, 1, imm⟩
  | .smodXAlu dst src => ⟨0x9c, dst.num, src.num, 1, 0⟩
  | .xorKAlu dst imm => ⟨0xa4, dst.num, 0, 0, imm⟩
  | .xorXAlu dst src => ⟨0xac, dst.num, src.num, 0, 0⟩
  | .movKAlu dst imm => ⟨0xb4, dst.num, 0, 0, imm⟩
  | .movXAlu dst src => ⟨0xbc, dst.num, src.num, 0, 0⟩
  | .movsx8XAlu dst src => ⟨0xbc, dst.num, src.num, 8, 0⟩
  | .movsx16XAlu dst src => ⟨0xbc, dst.num, src.num, 16, 0⟩
  | .arshKAlu dst imm => ⟨0xc4, dst.num, 0, 0, imm⟩
  | .arshXAlu dst src => ⟨0xcc, dst.num, src.num, 0, 0⟩
  | .addKAlu64 dst imm => ⟨0x07, dst.num, 0, 0, imm⟩
  | .addXAlu64 dst src => ⟨0x0f, dst.num, src.num, 0, 0⟩
  | .subKAlu64 dst imm => ⟨0x17, dst.num, 0, 0, imm⟩
  | .subXAlu64 dst src => ⟨0x1f, dst.num, src.num, 0, 0⟩
  | .mulKAlu64 dst imm => ⟨0x27, dst.num, 0, 0, imm⟩
  | .mulXAlu64 dst src => ⟨0x2f, dst.num, src.num, 0, 0⟩
  | .divKAlu64 dst imm => ⟨0x37, dst.num, 0, 0, imm⟩
  | .divXAlu64 dst src => ⟨0x3f, dst.num, src.num, 0, 0⟩
  | .sdivKAlu64 dst imm => ⟨0x37, dst.num, 0, 1, imm⟩
  | .sdivXAlu64 dst src => ⟨0x3f, dst.num, src.num, 1, 0⟩
  | .orKAlu64 dst imm => ⟨0x47, dst.num, 0, 0, imm⟩
  | .orXAlu64 dst src => ⟨0x4f, dst.num, src.num, 0, 0⟩
  | .andKAlu64 dst imm => ⟨0x57, dst.num, 0, 0, imm⟩
  | .andXAlu64 dst src => ⟨0x5f, dst.num, src.num, 0, 0⟩
  | .lshKAlu64 dst imm => ⟨0x67, dst.num, 0, 0, imm⟩
  | .lshXAlu64 dst src => ⟨0x6f, dst.num, src.num, 0, 0⟩
  | .rshKAlu64 dst imm => ⟨0x77, dst.num, 0, 0, imm⟩
  | .rshXAlu64 dst src => ⟨0x7f, dst.num, src.num, 0, 0⟩
  | .negKAlu64 dst => ⟨0x87, dst.num, 0, 0, 0⟩
  | .modKAlu64 dst imm => ⟨0x97, dst.num, 0, 0, imm⟩
  | .modXAlu64 dst src => ⟨0x9f, dst.num, src.num, 0, 0⟩
  | .smodKAlu64 dst imm => ⟨0x97, dst.num, 0, 1, imm⟩
  | .smodXAlu64 dst src => ⟨0x9f, dst.num, src.num, 1, 0⟩
  | .xorKAlu64 dst imm => ⟨0xa7, dst.num, 0, 0, imm⟩
  | .xorXAlu64 dst src => ⟨0xaf, dst.num, src.num, 0, 0⟩
  | .movKAlu64 dst imm => ⟨0xb7, dst.num, 0, 0, imm⟩
  | .movXAlu64 dst src => ⟨0xbf, dst.num, src.num, 0, 0⟩
  | .movsx8XAlu64 dst src => ⟨0xbf, dst.num, src.num, 8, 0⟩
  | .movsx16XAlu64 dst src => ⟨0xbf, dst.num, src.num, 16, 0⟩
  | .movsx32XAlu64 dst src => ⟨0xbf, dst.num, src.num, 32, 0⟩
  | .arshKAlu64 dst imm => ⟨0xc7, dst.num, 0, 0, imm⟩
  | .arshXAlu64 dst src => ⟨0xcf, dst.num, src.num, 0, 0⟩
  | .endToLeAlu16 dst => ⟨0xd4, dst.num, 0, 0, 16⟩
  | .endToLeAlu32 dst => ⟨0xd4, dst.num, 0, 0, 32⟩
  | .endToLeAlu64 dst => ⟨0xd4, dst.num, 0, 0, 64⟩
  | .endToBeAlu16 dst => ⟨0xdc, dst.num, 0, 0, 16⟩
  | .endToBeAlu32 dst => ⟨0xdc, dst.num, 0, 0, 32⟩
  | .endToBeAlu64 dst => ⟨0xdc, dst.num, 0, 0, 64⟩
  | .endAlu64Swap16 dst => ⟨0xd7, dst.num, 0, 0, 16⟩
  | .endAlu64Swap32 dst => ⟨0xd7, dst.num, 0, 0, 32⟩
  | .endAlu64Swap64 dst => ⟨0xd7, dst.num, 0, 0, 64⟩
  | .jaKJmp offset => ⟨0x05, 0, 0, offset, 0⟩
  | .jeqKJmp dst imm offset => ⟨0x15, dst.num, 0, offset, imm⟩
  | .jeqXJmp dst src offset => ⟨0x1d, dst.num, src.num, offset, 0⟩
  | .jgtKJmp dst imm offset => ⟨0x25, dst.num, 0, offset, imm⟩
  | .jgtXJmp dst src offset => ⟨0x2d, dst.num, src.num, offset, 0⟩
  | .jgeKJmp dst imm offset => ⟨0x35, dst.num, 0, offset, imm⟩
  | .jgeXJmp dst src offset => ⟨0x3d, dst.num, src.num, offset, 0⟩
  | .jsetKJmp dst imm offset => ⟨0x45, dst.num, 0, offset, imm⟩
  | .jsetXJmp dst src offset => ⟨0x4d, dst.num, src.num, offset, 0⟩
  | .jneKJmp dst imm offset => ⟨0x55, dst.num, 0, offset, imm⟩
  | .jneXJmp dst src offset => ⟨0x5d, dst.num, src.num, offset, 0⟩
  | .jsgtKJmp dst imm offset => ⟨0x65, dst.num, 0, offset, imm⟩
  | .jsgtXJmp dst src offset => ⟨0x6d, dst.num, src.num, offset, 0⟩
  | .jsgeKJmp dst imm offset => ⟨0x75, dst.num, 0, offset, imm⟩
  | .jsgeXJmp dst src offset => ⟨0x7d, dst.num, src.num, offset, 0⟩
  | .jltKJmp dst imm offset => ⟨0xa5, dst.num, 0, offset, imm⟩
  | .jltXJmp dst src offset => ⟨0xad, dst.num, src.num, offset, 0⟩
  | .jleKJmp dst imm offset => ⟨0xb5, dst.num, 0, offset, imm⟩
  | .jleXJmp dst src offset => ⟨0xbd, dst.num, src.num, offset, 0⟩
  | .jsltKJmp dst imm offset => ⟨0xc5, dst.num, 0, offset, imm⟩
  | .jsltXJmp dst src offset => ⟨0xcd, dst.num, src.num, offset, 0⟩
  | .jsleKJmp dst imm offset => ⟨0xd5, dst.num, 0, offset, imm⟩
  | .jsleXJmp dst src offset => ⟨0xdd, dst.num, src.num, offset, 0⟩
  | .callHelperKJmp imm => ⟨0x85, 0, 0, 0, imm⟩
  | .callLocalKJmp imm => ⟨0x85, 0, 1, 0, imm⟩
  | .callBtfKJmp imm => ⟨0x85, 0, 2, 0, imm⟩
  | .exitKJmp => ⟨0x95, 0, 0, 0, 0⟩
  | .jaKJmp32 imm => ⟨0x06, 0, 0, 0, imm⟩
  | .jeqKJmp32 dst imm offset => ⟨0x16, dst.num, 0, offset, imm⟩
  | .jeqXJmp32 dst src offset => ⟨0x1e, dst.num, src.num, offset, 0⟩
  | .jgtKJmp32 dst imm offset => ⟨0x26, dst.num, 0, offset, imm⟩
  | .jgtXJmp32 dst src offset => ⟨0x2e, dst.num, src.num, offset, 0⟩
  | .jgeKJmp32 dst imm offset => ⟨0x36, dst.num, 0, offset, imm⟩
  | .jgeXJmp32 dst src offset => ⟨0x3e, dst.num, src.num, offset, 0⟩
  | .jsetKJmp32 dst imm offset => ⟨0x46, dst.num, 0, offset, imm⟩
  | .jsetXJmp32 dst src offset => ⟨0x4e, dst.num, src.num, offset, 0⟩
  | .jneKJmp32 dst imm offset => ⟨0x56, dst.num, 0, offset, imm⟩
  | .jneXJmp32 dst src offset => ⟨0x5e, dst.num, src.num, offset, 0⟩
  | .jsgtKJmp32 dst imm offset => ⟨0x66, dst.num, 0, offset, imm⟩
  | .jsgtXJmp32 dst src offset => ⟨0x6e, dst.num, src.num, offset, 0⟩
  | .jsgeKJmp32 dst imm offset => ⟨0x76, dst.num, 0, offset, imm⟩
  | .jsgeXJmp32 dst src offset => ⟨0x7e, dst.num, src.num, offset, 0⟩
  | .jltKJmp32 dst imm offset => ⟨0xa6, dst.num, 0, offset, imm⟩
  | .jltXJmp32 dst src offset => ⟨0xae, dst.num, src.num, offset, 0⟩
  | .jleKJmp32 dst imm offset => ⟨0xb6, dst.num, 0, offset, imm⟩
  | .jleXJmp32 dst src offset => ⟨0xbe, dst.num, src.num, offset, 0⟩
  | .jsltKJmp32 dst imm offset => ⟨0xc6, dst.num, 0, offset, imm⟩
  | .jsltXJmp32 dst src offset => ⟨0xce, dst.num, src.num, offset, 0⟩
  | .jsleKJmp32 dst imm offset => ⟨0xd6, dst.num, 0, offset, imm⟩
  | .jsleXJmp32 dst src offset => ⟨0xde, dst.num, src.num, offset, 0⟩
  | .memWLdx dst src offset => ⟨0x61, dst.num, src.num, offset, 0⟩
  | .memHLdx dst src offset => ⟨0x69, dst.num, src.num, offset, 0⟩
  | .memBLdx dst src offset => ⟨0x71, dst.num, src.num, offset, 0⟩
  | .memDwLdx dst src offset => ⟨0x79, dst.num, src.num, offset, 0⟩
  | .memWSt dst offset imm => ⟨0x62, dst.num, 0, offset, imm⟩
  | .memHSt dst offset imm => ⟨0x6a, dst.num, 0, offset, imm⟩
  | .memBSt dst offset imm => ⟨0x72, dst.num, 0, offset, imm⟩
  | .memDwSt dst offset imm => ⟨0x7a, dst.num, 0, offset, imm⟩
  | .memWStx dst src offset => ⟨0x63, dst.num, src.num, offset, 0⟩
  | .memHStx dst src offset => ⟨0x6b, dst.num, src.num, offset, 0⟩
  | .memBStx dst src offset => ⟨0x73, dst.num, src.num, offset, 0⟩
  | .memDwStx dst src offset => ⟨0x7b, dst.num, src.num, offset, 0⟩
  | .memsxWLdx dst src offset => ⟨0x81, dst.num, src.num, offset, 0⟩
  | .memsxHLdx dst src offset => ⟨0x89, dst.num, src.num, offset, 0⟩
  | .memsxBLdx dst src offset => ⟨0x91, dst.num, src.num, offset, 0⟩
  | .atomicWStxAdd dst src offset => ⟨0xc3, dst.num, src.num, offset, 0⟩
  | .atomicDwStxAdd dst src offset => ⟨0xdb, dst.num, src.num, offset, 0⟩
  | .atomicWStxAddFetch dst src offset => ⟨0xc3, dst.num, src.num, offset, 0x01⟩
  | .atomicDwStxAddFetch dst src offset => ⟨0xdb, dst.num, src.num, offset, 0x01⟩
  | .atomicWStxOr dst src offset => ⟨0xc3, dst.num, src.num, offset, 0x40⟩
  | .atomicDwStxOr dst src offset => ⟨0xdb, dst.num, src.num, offset, 0x40⟩
  | .atomicWStxOrFetch dst src offset => ⟨0xc3, dst.num, src.num, offset, 0x41⟩
  | .atomicDwStxOrFetch dst src offset => ⟨0xdb, dst.num, src.num, offset, 0x41⟩
  | .atomicWStxAnd dst src offset => ⟨0xc3, dst.num, src.num, offset, 0x50⟩
  | .atomicDwStxAnd dst src offset => ⟨0xdb, dst.num, src.num, offset, 0x50⟩
  | .atomicWStxAndFetch dst src offset => ⟨0xc3, dst.num, src.num, offset, 0x51⟩
  | .atomicDwStxAndFetch dst src offset => ⟨0xdb, dst.num, src.num, offset, 0x51⟩
  | .atomicWStxXor dst src offset => ⟨0xc3, dst.num, src.num, offset, 0xa0⟩
  | .atomicDwStxXor dst src offset => ⟨0xdb, dst.num, src.num, offset, 0xa0⟩
  | .atomicWStxXorFetch dst src offset => ⟨0xc3, dst.num, src.num, offset, 0xa1⟩
  | .atomicDwStxXorFetch dst src offset => ⟨0xdb, dst.num, src.num, offset, 0xa1⟩
  | .atomicWStxXchg dst src offset => ⟨0xc3, dst.num, src.num, offset, 0xe1⟩
  | .atomicDwStxXchg dst src offset => ⟨0xdb, dst.num, src.num, offset, 0xe1⟩
  | .atomicWStxCmpxchg dst src offset => ⟨0xc3, dst.num, src.num, offset, 0xf1⟩
  | .atomicDwStxCmpxchg dst src offset => ⟨0xdb, dst.num, src.num, offset, 0xf1⟩
  | .immDwLd0 dst imm _ => ⟨0x18, dst.num, 0, 0, imm⟩
  | .immDwLd1 dst imm => ⟨0x18, dst.num, 1, 0, imm⟩
  | .immDwLd2 dst imm _ => ⟨0x18, dst.num, 2, 0, imm⟩
  | .immDwLd3 dst imm => ⟨0x18, dst.num, 3, 0, imm⟩
  | .immDwLd4 dst imm => ⟨0x18, dst.num, 4, 0, imm⟩
  | .immDwLd5 dst imm => ⟨0x18, dst.num, 5, 0, imm⟩
  | .immDwLd6 dst imm _ => ⟨0x18, dst.num, 6, 0, imm⟩
  | .absWLd imm => ⟨0x20, 0, 0, 0, imm⟩
  | .absHLd imm => ⟨0x28, 0, 0, 0, imm⟩
  | .absBLd imm => ⟨0x30, 0, 0, 0, imm⟩
  | .indWLd src imm => ⟨0x40, 0, src.num, 0, imm⟩
  | .indHLd src imm => ⟨0x48, 0, src.num, 0, imm⟩
  | .indBLd src imm => ⟨0x50, 0, src.num, 0, imm⟩

/-- The `next_imm` of a wide instruction (0 where the row does not use it); none for a basic instruction
(30_encoding.md R85). -/
def Instr.nextImm? : Instr → Option (BitVec 32)
  | .addKAlu _ _ => none
  | .addXAlu _ _ => none
  | .subKAlu _ _ => none
  | .subXAlu _ _ => none
  | .mulKAlu _ _ => none
  | .mulXAlu _ _ => none
  | .divKAlu _ _ => none
  | .divXAlu _ _ => none
  | .sdivKAlu _ _ => none
  | .sdivXAlu _ _ => none
  | .orKAlu _ _ => none
  | .orXAlu _ _ => none
  | .andKAlu _ _ => none
  | .andXAlu _ _ => none
  | .lshKAlu _ _ => none
  | .lshXAlu _ _ => none
  | .rshKAlu _ _ => none
  | .rshXAlu _ _ => none
  | .negKAlu _ => none
  | .modKAlu _ _ => none
  | .modXAlu _ _ => none
  | .smodKAlu _ _ => none
  | .smodXAlu _ _ => none
  | .xorKAlu _ _ => none
  | .xorXAlu _ _ => none
  | .movKAlu _ _ => none
  | .movXAlu _ _ => none
  | .movsx8XAlu _ _ => none
  | .movsx16XAlu _ _ => none
  | .arshKAlu _ _ => none
  | .arshXAlu _ _ => none
  | .addKAlu64 _ _ => none
  | .addXAlu64 _ _ => none
  | .subKAlu64 _ _ => none
  | .subXAlu64 _ _ => none
  | .mulKAlu64 _ _ => none
  | .mulXAlu64 _ _ => none
  | .divKAlu64 _ _ => none
  | .divXAlu64 _ _ => none
  | .sdivKAlu64 _ _ => none
  | .sdivXAlu64 _ _ => none
  | .orKAlu64 _ _ => none
  | .orXAlu64 _ _ => none
  | .andKAlu64 _ _ => none
  | .andXAlu64 _ _ => none
  | .lshKAlu64 _ _ => none
  | .lshXAlu64 _ _ => none
  | .rshKAlu64 _ _ => none
  | .rshXAlu64 _ _ => none
  | .negKAlu64 _ => none
  | .modKAlu64 _ _ => none
  | .modXAlu64 _ _ => none
  | .smodKAlu64 _ _ => none
  | .smodXAlu64 _ _ => none
  | .xorKAlu64 _ _ => none
  | .xorXAlu64 _ _ => none
  | .movKAlu64 _ _ => none
  | .movXAlu64 _ _ => none
  | .movsx8XAlu64 _ _ => none
  | .movsx16XAlu64 _ _ => none
  | .movsx32XAlu64 _ _ => none
  | .arshKAlu64 _ _ => none
  | .arshXAlu64 _ _ => none
  | .endToLeAlu16 _ => none
  | .endToLeAlu32 _ => none
  | .endToLeAlu64 _ => none
  | .endToBeAlu16 _ => none
  | .endToBeAlu32 _ => none
  | .endToBeAlu64 _ => none
  | .endAlu64Swap16 _ => none
  | .endAlu64Swap32 _ => none
  | .endAlu64Swap64 _ => none
  | .jaKJmp _ => none
  | .jeqKJmp _ _ _ => none
  | .jeqXJmp _ _ _ => none
  | .jgtKJmp _ _ _ => none
  | .jgtXJmp _ _ _ => none
  | .jgeKJmp _ _ _ => none
  | .jgeXJmp _ _ _ => none
  | .jsetKJmp _ _ _ => none
  | .jsetXJmp _ _ _ => none
  | .jneKJmp _ _ _ => none
  | .jneXJmp _ _ _ => none
  | .jsgtKJmp _ _ _ => none
  | .jsgtXJmp _ _ _ => none
  | .jsgeKJmp _ _ _ => none
  | .jsgeXJmp _ _ _ => none
  | .jltKJmp _ _ _ => none
  | .jltXJmp _ _ _ => none
  | .jleKJmp _ _ _ => none
  | .jleXJmp _ _ _ => none
  | .jsltKJmp _ _ _ => none
  | .jsltXJmp _ _ _ => none
  | .jsleKJmp _ _ _ => none
  | .jsleXJmp _ _ _ => none
  | .callHelperKJmp _ => none
  | .callLocalKJmp _ => none
  | .callBtfKJmp _ => none
  | .exitKJmp => none
  | .jaKJmp32 _ => none
  | .jeqKJmp32 _ _ _ => none
  | .jeqXJmp32 _ _ _ => none
  | .jgtKJmp32 _ _ _ => none
  | .jgtXJmp32 _ _ _ => none
  | .jgeKJmp32 _ _ _ => none
  | .jgeXJmp32 _ _ _ => none
  | .jsetKJmp32 _ _ _ => none
  | .jsetXJmp32 _ _ _ => none
  | .jneKJmp32 _ _ _ => none
  | .jneXJmp32 _ _ _ => none
  | .jsgtKJmp32 _ _ _ => none
  | .jsgtXJmp32 _ _ _ => none
  | .jsgeKJmp32 _ _ _ => none
  | .jsgeXJmp32 _ _ _ => none
  | .jltKJmp32 _ _ _ => none
  | .jltXJmp32 _ _ _ => none
  | .jleKJmp32 _ _ _ => none
  | .jleXJmp32 _ _ _ => none
  | .jsltKJmp32 _ _ _ => none
  | .jsltXJmp32 _ _ _ => none
  | .jsleKJmp32 _ _ _ => none
  | .jsleXJmp32 _ _ _ => none
  | .memWLdx _ _ _ => none
  | .memHLdx _ _ _ => none
  | .memBLdx _ _ _ => none
  | .memDwLdx _ _ _ => none
  | .memWSt _ _ _ => none
  | .memHSt _ _ _ => none
  | .memBSt _ _ _ => none
  | .memDwSt _ _ _ => none
  | .memWStx _ _ _ => none
  | .memHStx _ _ _ => none
  | .memBStx _ _ _ => none
  | .memDwStx _ _ _ => none
  | .memsxWLdx _ _ _ => none
  | .memsxHLdx _ _ _ => none
  | .memsxBLdx _ _ _ => none
  | .atomicWStxAdd _ _ _ => none
  | .atomicDwStxAdd _ _ _ => none
  | .atomicWStxAddFetch _ _ _ => none
  | .atomicDwStxAddFetch _ _ _ => none
  | .atomicWStxOr _ _ _ => none
  | .atomicDwStxOr _ _ _ => none
  | .atomicWStxOrFetch _ _ _ => none
  | .atomicDwStxOrFetch _ _ _ => none
  | .atomicWStxAnd _ _ _ => none
  | .atomicDwStxAnd _ _ _ => none
  | .atomicWStxAndFetch _ _ _ => none
  | .atomicDwStxAndFetch _ _ _ => none
  | .atomicWStxXor _ _ _ => none
  | .atomicDwStxXor _ _ _ => none
  | .atomicWStxXorFetch _ _ _ => none
  | .atomicDwStxXorFetch _ _ _ => none
  | .atomicWStxXchg _ _ _ => none
  | .atomicDwStxXchg _ _ _ => none
  | .atomicWStxCmpxchg _ _ _ => none
  | .atomicDwStxCmpxchg _ _ _ => none
  | .immDwLd0 _ _ nextImm => some nextImm
  | .immDwLd1 _ _ => some 0
  | .immDwLd2 _ _ nextImm => some nextImm
  | .immDwLd3 _ _ => some 0
  | .immDwLd4 _ _ => some 0
  | .immDwLd5 _ _ => some 0
  | .immDwLd6 _ _ nextImm => some nextImm
  | .absWLd _ => none
  | .absHLd _ => none
  | .absBLd _ => none
  | .indWLd _ _ => none
  | .indHLd _ _ => none
  | .indBLd _ _ => none

/-- The fields of the second slot of a wide instruction: a pseudo instruction whose other fields are zero, with
`next_imm` in the place of `imm` (30_encoding.md R85). -/
def Instr.secondFields (i : Instr) : Option Fields :=
  i.nextImm?.map fun n => { Fields.ofOpcode 0 with imm := n }

/-- The canonical words of an instruction: `W`, and `W2` if it is wide (30_encoding.md R81, R85). -/
def encode (i : Instr) : Word × Option Word :=
  (i.fields.word, i.secondFields.map Fields.word)

/-- The slots of an instruction on a host of this byte order (30_encoding.md R82, R83, R85). -/
def encodeSlots (e : Endian) (i : Instr) : Slot × Option Slot :=
  (i.fields.slot e, i.secondFields.map (Fields.slot e))

/-- How many slots an instruction fills (30_encoding.md R80). -/
def Instr.length (i : Instr) : Nat :=
  match i.nextImm? with
  | some _ => 2
  | none => 1

/-! ### Words as the opcode table numbers their bits -/

/-- The bits of a table word that go to the first slot (canonical, R81): those below `nbits`. -/
def tableWord (nbits w : Nat) : Word := BitVec.ofNat 64 (w % 2 ^ nbits)

/-- The bits of a table word from bit 64 on, the second canonical word `W2`. -/
def tableWord2 (nbits w : Nat) : Word := BitVec.ofNat 64 (w % 2 ^ nbits / 2 ^ 64)

/-- The two slots that hold a table word on a host of this byte order. -/
def tableSlots (e : Endian) (nbits w : Nat) : Slot × Slot :=
  ((Fields.ofWord (tableWord nbits w)).slot e, (Fields.ofWord (tableWord2 nbits w)).slot e)

/-- The instruction the decoder reads from a table word laid out as a little-endian host stores it. -/
def decodeTableWord (nbits w : Nat) : Option Instr :=
  match decodeSlots .little (tableSlots .little nbits w).1 (some (tableSlots .little nbits w).2) with
  | .ok i => some i
  | .error _ => none

end Sys2Proof
end

