-- ==== Sys2Proof/Machine/State.lean ====
section
/-!
DEFINITION. The state of the machine as plain data, holding all the spec gives it (10_state.md), the faults and
refusals a step can end in (60_exceptions.md R382, R391), and the state right after reset.
-/
namespace Sys2Proof.Machine

/-- Data memory (10_state.md R31): the bytes the launch placed or the program wrote, as (address, byte) pairs, the
addresses strictly rising and below 2^64. An address that is not listed has no stored byte; what it reads as is
`State.byteAt`. -/
abbrev Memory := List Host.Cell

/-- The faults, with the information each records (60_exceptions.md R382). Each ends the run (R381 (b)), so each is
safe: the model stops where a machine refuses the program or does something the source does not define. -/
inductive Fault where
  /-- Code 1. Raised by the fetch for a word that spells no instruction of the machine, and by a packet instruction
  whose group is not supported (R383). Safe. -/
  | illegalInstruction (pc : Nat) (w : Word) (w2 : Option Word)
  /-- Code 2. Raised by the fetch past the last slot, or of a wide instruction the end of the program cuts off (R384).
  Safe. -/
  | fetchOutOfProgram (pc : Nat)
  /-- Code 3. Raised by a taken jump or a program-local call whose target is no instruction start (R385). Safe. -/
  | badJumpTarget (pc : Nat) (target : Int)
  /-- Code 4. Raised by every instruction that reads a register holding no value (R386). Safe. -/
  | unwrittenRegister (pc : Nat) (r : Reg)
  /-- Code 5. Raised by loads, stores and atomics the platform does not admit, that wrap past the top of memory, or
  that are misaligned (R387). Safe. -/
  | memoryNotAdmitted (pc : Nat) (addr : Word) (size : Size) (kind : AccessKind)
  /-- Code 6. Raised by a helper call whose id the table does not list (R388). Safe. -/
  | unknownHelper (pc : Nat) (id : BitVec 32) (table : HelperTable)
  /-- Code 7. Raised by a program-local call when the call stack is full (R389). Safe. -/
  | callDepthExceeded (pc : Nat)
  /-- Code 8. Raised by a wide load that names a platform object which does not exist (R390). Safe. -/
  | unresolvedPlatformRef (pc : Nat) (kind : PlatformRef) (imm : BitVec 32)
deriving DecidableEq, Repr

/-- What the model does not cover (60_exceptions.md R391), and the end of a run. -/
inductive Refusal where
  /-- Raised by an arm of `exec` that has no meaning yet; none is left. Safe. -/
  | notModelled (mnemonic : String)
  /-- Raised by the six packet instructions where their group is supported: the source does not say what they do
  (R391 (a), 48_packet.md R365). Safe. -/
  | packetSemanticsNotInSource
  /-- Raised by the launch: `GROUPS` does not contain base32 (R391 (b)). Safe. -/
  | launchWithoutBase32
  /-- Raised by the launch: `ENTRY_PC` is not a legal instruction start (R391 (b)). Safe. -/
  | launchBadEntryPc
  /-- Raised by the launch: `MEM_ADMIT` admits a write to a code address (R391 (b), 20_memory.md R66). Safe. -/
  | launchCodeWritable
  /-- Raised by the launch: a helper does not return to the next instruction (R391 (b), 43_jump.md R223). Safe. -/
  | launchHelperDoesNotReturn
  /-- Raised by a step after the run has ended with this result: only a running machine steps (10_state.md R34). Safe. -/
  | runEnded (result : Word)
deriving DecidableEq, Repr

/-- The run status (10_state.md R34). -/
inductive Status where
  | running
  | exited (result : Word)
  | faulted (f : Fault)
  | refused (r : Refusal)
deriving DecidableEq, Repr

/-- The caller's registers a frame keeps under `fresh_frame` (43_jump.md R224): R6 to R9, and R10 as `fp`. -/
structure SavedRegs where
  r6 : RegVal
  r7 : RegVal
  r8 : RegVal
  r9 : RegVal
  fp : RegVal
deriving DecidableEq, Repr

/-- A frame of the call stack (10_state.md R33): where to return to, and the saved registers; under
`FRAME_POLICY = none` nothing is saved. -/
structure Frame where
  ret : Nat
  saved : Option SavedRegs
deriving DecidableEq, Repr

/-- The state of the machine. `text` and `params` are the launch's (10_state.md R30, 00_scope.md R6) and no
instruction changes them; they stand here because a step has no other argument (log entry 3). -/
structure State where
  /-- The general registers (10_state.md R20, R22). -/
  regs : Regs
  /-- The program counter, a slot index (10_state.md R24). -/
  pc : Nat
  /-- Data memory (10_state.md R31). -/
  mem : Memory
  /-- The call stack, innermost frame first (10_state.md R33). -/
  cs : List Frame
  /-- The model's own: the greatest depth the call stack has had in this run, so that the frame of a call is known to be
  a reused one (43_jump.md R251; log entry 12). -/
  deepest : Nat
  /-- The run status (10_state.md R34). -/
  status : Status
  /-- The program text (10_state.md R30). -/
  text : List Slot
  /-- The parameters of the platform (00_scope.md R6). -/
  params : Params
  /-- The model's own: where the environment stands, a token with no meaning but to free values, which each step
  replaces by another free value. It counts nothing (60_exceptions.md R397; log entry 5). -/
  env : Nat
deriving DecidableEq, Repr

/-- Right after reset: the launch values of 10_state.md R36 under the recommended parameters, with no program placed
(log entry 2). The registers are those of `Regs.entry` (log entry 1). -/
def State.reset : State where
  regs := Regs.entry
  pc := 0
  mem := []
  cs := []
  deepest := 0
  status := .running
  text := []
  params := Params.recommended
  env := 0

end Sys2Proof.Machine
end

