-- ==== Sys2Proof/Machine/Ops.lean ====
section
/-!
DEFINITION. The named operations over registers, memory, the pc, the call stack and the platform that every meaning
is written with: raising a fault (60_exceptions.md R381), the pseudocode primitives of 00_scope.md R9, jumps, helper
calls, program-local calls and their return (43_jump.md R220 to R224).
-/
namespace Sys2Proof

/-! ### The register file and the parameters -/

/-- What a register holds. -/
def Regs.get (x : Regs) : Reg → RegVal
  | .r0 => x.r0
  | .r1 => x.r1
  | .r2 => x.r2
  | .r3 => x.r3
  | .r4 => x.r4
  | .r5 => x.r5
  | .r6 => x.r6
  | .r7 => x.r7
  | .r8 => x.r8
  | .r9 => x.r9
  | .r10 => x.r10

/-- The register file with one register changed. -/
def Regs.set (x : Regs) (r : Reg) (v : RegVal) : Regs :=
  match r with
  | .r0 => { x with r0 := v }
  | .r1 => { x with r1 := v }
  | .r2 => { x with r2 := v }
  | .r3 => { x with r3 := v }
  | .r4 => { x with r4 := v }
  | .r5 => { x with r5 := v }
  | .r6 => { x with r6 := v }
  | .r7 => { x with r7 := v }
  | .r8 => { x with r8 := v }
  | .r9 => { x with r9 := v }
  | .r10 => { x with r10 := v }

/-- R1 to R5 hold no value: the argument registers after a call (43_jump.md R223 (4), R224). -/
def Regs.forgetArgs (x : Regs) : Regs :=
  { x with r1 := .unwritten, r2 := .unwritten, r3 := .unwritten, r4 := .unwritten, r5 := .unwritten }

/-- R6 to R9 hold no value: a program-local function at its entry (43_jump.md R224). -/
def Regs.forgetSaved (x : Regs) : Regs :=
  { x with r6 := .unwritten, r7 := .unwritten, r8 := .unwritten, r9 := .unwritten }

/-- The registers a frame saves (43_jump.md R224). -/
def Regs.toSave (x : Regs) : Machine.SavedRegs :=
  { r6 := x.r6, r7 := x.r7, r8 := x.r8, r9 := x.r9, fp := x.r10 }

/-- R6 to R10 as a frame saved them (43_jump.md R224). -/
def Regs.restore (x : Regs) (f : Machine.SavedRegs) : Regs :=
  { x with r6 := f.r6, r7 := f.r7, r8 := f.r8, r9 := f.r9, r10 := f.fp }

/-- Is the address private to the program (20_memory.md R63 (b))? -/
def Params.isPrivate (p : Params) (a : Word) : Bool :=
  p.privateMem.any fun sp => sp.holds a.toNat

/-- Does a region of `MEM_ADMIT` permit this kind of access? -/
def Region.permits (g : Region) : AccessKind → Bool
  | .read => g.read
  | .write => g.write
  | .atomic => g.atomic

/-- `MEM_ADMIT(addr, n, kind)` (20_memory.md R56). -/
def Params.admits (p : Params) (a : Word) (n : Nat) (kind : AccessKind) : Bool :=
  p.memAdmit.any fun g =>
    g.permits kind && decide (n ∈ g.widths) && decide (g.base ≤ a.toNat)
      && decide (a.toNat + n ≤ g.base + g.size)

/-- Does the alignment rule accept the address (20_memory.md R54)? Atomics are aligned under every policy. -/
def Params.aligned (p : Params) (a : Word) (n : Nat) (kind : AccessKind) : Bool :=
  (decide (p.alignPolicy = .allow) && decide (kind ≠ .atomic)) || decide (a.toNat % n = 0)

/-- The whole check on an access, made before any byte is touched: admitted, aligned, and not wrapping past the top
of the address space (20_memory.md R53, R54, R56). -/
def Params.accessOk (p : Params) (a : Word) (z : Size) (kind : AccessKind) : Bool :=
  decide (a.toNat + z.bytes ≤ 2 ^ 64) && p.aligned a z.bytes kind && p.admits a z.bytes kind

/-- The helper a table lists under an id (43_jump.md R223). -/
def Params.helper (p : Params) (t : HelperTable) (id : BitVec 32) : Option Helper :=
  match t with
  | .static => p.helpersStatic.lookup id
  | .btf => p.helpersBtf.lookup id

/-- `CALLEE_FP(d)` (43_jump.md R224): the platform's frame pointer at depth `d`; by default contiguous frames of
`STACK_SIZE` bytes below the entry frame. Where R10 holds nothing at launch the default has no value (log entry 9). -/
def Params.calleeFpAt (p : Params) (d : Nat) : RegVal :=
  match p.calleeFp.lookup d with
  | some a => .holds a
  | none =>
    match p.entryRegs.r10 with
    | .holds top => .holds (top - BitVec.ofNat 64 (d * p.stackSize))
    | .unwritten => .unwritten

/-- `map_val` of the map a table gives (47_imm64.md R353, R357, R358). -/
def Params.mapValue (p : Params) (map : Option Word) : Option Word :=
  match map with
  | some m => p.mapVal.lookup m
  | none => none

end Sys2Proof

namespace Sys2Proof.Machine

/-- What an instruction or a step answers. -/
abbrev Res := Host.Outcome State Fault Refusal

/-! ### Faults and refusals -/

/-- `raise F(info)` (60_exceptions.md R381): the step ends in the fault and the instruction has changed nothing. There
is no handler, no saved state and no return (R394), so this is the whole of taking an exception. -/
def raise (f : Fault) : Res := .fault f

/-- End the run as not covered by the model (60_exceptions.md R391). -/
def refuse (r : Refusal) : Res := .refused r

/-- The state a step leaves behind: the next state, or the state it started from with the fault or refusal as the run
status (10_state.md R34, 60_exceptions.md R381 (a)). -/
def State.settle (s : State) : Res → State
  | .next t => t
  | .fault f => { s with status := .faulted f }
  | .refused r => { s with status := .refused r }

/-- The end of a completed step: the environment moves on, seeing the memory, so that the next step reads fresh free
values (20_memory.md R63 (b); log entry 5). -/
def tick : Res → Res
  | .next t => .next { t with env := Config.envNext t.env t.mem }
  | .fault f => .fault f
  | .refused r => .refused r

/-! ### Registers -/

/-- What register `r` holds in a state. -/
def State.reg (s : State) (r : Reg) : RegVal := s.regs.get r

/-- `x[r] <- v` (00_scope.md R9). -/
def State.setReg (s : State) (r : Reg) (v : Word) : State :=
  { s with regs := s.regs.set r (.holds v) }

/-- `pc <- pc + n` (10_state.md R25). -/
def State.advance (s : State) (n : Nat) : State := { s with pc := s.pc + n }

/-- Read `x[r]` and go on with its value; a register that holds none raises `UnwrittenRegister` (10_state.md R22). -/
def readReg (s : State) (r : Reg) (k : Word → Res) : Res :=
  match s.reg r with
  | .holds v => k v
  | .unwritten => raise (.unwrittenRegister s.pc r)

/-- Read several registers, in this order. -/
def readRegs (s : State) : List Reg → (List Word → Res) → Res
  | [], k => k []
  | r :: rs, k => readReg s r fun v => readRegs s rs fun vs => k (v :: vs)

/-- The end of a basic instruction that writes one register: `x[dst] <- v`; `pc <- pc + 1`. -/
def writeAndAdvance (s : State) (dst : Reg) (v : Word) : Res :=
  .next ((s.setReg dst v).advance 1)

/-! ### Memory -/

/-- The byte stored at an address, if the launch placed or the program wrote one. -/
def Memory.find : Memory → Nat → Option Byte
  | [], _ => none
  | (k, v) :: rest, a => if k = a then some v else Memory.find rest a

/-- Store one byte, keeping the addresses rising. -/
def Memory.put : Memory → Nat → Byte → Memory
  | [], a, b => [(a, b)]
  | (k, v) :: rest, a, b =>
    if a < k then (a, b) :: (k, v) :: rest
    else if a = k then (a, b) :: rest
    else (k, v) :: Memory.put rest a b

/-- Addresses rise strictly from `lo` on and stay below 2^64. -/
def Memory.wfFrom : Nat → Memory → Bool
  | _, [] => true
  | lo, (k, _) :: rest => decide (lo ≤ k) && decide (k < 2 ^ 64) && Memory.wfFrom (k + 1) rest

/-- The canonical form of a memory: addresses strictly rising, below 2^64 (log entry 4). -/
def Memory.wf (m : Memory) : Bool := Memory.wfFrom 0 m

/-- Store bytes at consecutive addresses (20_memory.md R53). -/
def Memory.putBytes : Memory → Word → List Byte → Memory
  | m, _, [] => m
  | m, a, b :: bs => Memory.putBytes (Memory.put m a.toNat b) (a + 1) bs

/-- Store single bytes, each at its own address. -/
def Memory.putAll : Memory → List (Word × Byte) → Memory
  | m, [] => m
  | m, (a, b) :: ws => Memory.putAll (Memory.put m a.toNat b) ws

/-- The byte the program reads at an address: of private memory, what was stored there, or the free value the launch
left (10_state.md R36); of other memory, whatever the environment made it (20_memory.md R63 (b)). -/
def State.byteAt (s : State) (a : Word) : Byte :=
  if s.params.isPrivate a then (Memory.find s.mem a.toNat).getD (Config.launchByte a)
  else Config.sharedByte s.env a

/-- The bytes the program reads at `n` consecutive addresses. -/
def State.bytesAt (s : State) : Word → Nat → List Byte
  | _, 0 => []
  | a, n + 1 => s.byteAt a :: s.bytesAt (a + 1) n

/-- The number `n` bytes at an address spell in data byte order, zero-extended (20_memory.md R50, R53). -/
def State.load (s : State) (a : Word) (z : Size) : Word :=
  ofBytes s.params.hostEndian (s.bytesAt a z.bytes)

/-- Store the low bytes of a value in data byte order (20_memory.md R50, R53). -/
def State.store (s : State) (a : Word) (z : Size) (v : Word) : State :=
  { s with mem := Memory.putBytes s.mem a (bytesOf s.params.hostEndian z.bytes v) }

/-- Go on if the access passes its check; `MemoryNotAdmitted` if it does not (60_exceptions.md R387). -/
def checkAccess (s : State) (a : Word) (z : Size) (kind : AccessKind) (k : Res) : Res :=
  if s.params.accessOk a z kind then k else raise (.memoryNotAdmitted s.pc a z kind)

/-- `MemRead(addr, n)` (20_memory.md R53): go on with the number read. -/
def memRead (s : State) (a : Word) (z : Size) (k : Word → Res) : Res :=
  checkAccess s a z .read (k (s.load a z))

/-- `MemWrite(addr, n, v)` (20_memory.md R53): go on in the state with the bytes stored. -/
def memWrite (s : State) (a : Word) (z : Size) (v : Word) (k : State → Res) : Res :=
  checkAccess s a z .write (k (s.store a z v))

/-- `AtomicRMW(addr, n, f)` (20_memory.md R58): in one step read the old number, write what `f` gives for it (nothing
where it gives none) and go on with the old number and the state after the write. -/
def atomicRmw (s : State) (a : Word) (z : Size) (f : Word → Option Word) (k : Word → State → Res) : Res :=
  checkAccess s a z .atomic <|
    match f (s.load a z) with
    | some v => k (s.load a z) (s.store a z v)
    | none => k (s.load a z) s

/-! ### The pc -/

/-- Is slot `t` an instruction start, scanning from a slot that is one (`second = false`) or is the second half of a
wide instruction (43_jump.md R222)? -/
def startsAt : (second : Bool) → List Slot → Nat → Bool
  | _, [], _ => false
  | second, _ :: _, 0 => !second
  | second, slot :: rest, t + 1 => startsAt (!second && slot.isWide) rest t

/-- Is the target a legal instruction start (43_jump.md R222)? -/
def legalTarget (text : List Slot) (t : Int) : Bool :=
  decide (0 ≤ t) && startsAt false text t.toNat

/-- The slot a displacement leads to from the instruction at `pc`, computed in the integers (43_jump.md R220). -/
def jumpTarget (s : State) (d : Int) : Int := (s.pc : Int) + 1 + d

/-- `jump(d)` (43_jump.md R220). -/
def jump (s : State) (d : Int) : Res :=
  if legalTarget s.text (jumpTarget s d) then .next { s with pc := (jumpTarget s d).toNat }
  else raise (.badJumpTarget s.pc (jumpTarget s d))

/-- A conditional jump (43_jump.md R220): a jump that is not taken checks no target. -/
def jumpIf (s : State) (taken : Bool) (offset : BitVec 16) : Res :=
  if taken then jump s offset.toInt else .next (s.advance 1)

/-! ### Helper calls -/

/-- The registers that carry the arguments of a call (43_jump.md R223). -/
def argRegs : List Reg := [.r1, .r2, .r3, .r4, .r5]

/-- Does a case of a helper's run apply to a call with these arguments, in the memory as it reads now (43_jump.md
R223)? -/
def caseApplies (s : State) (c : HelperCase) (args : List Word) : Bool :=
  decide (c.args = args) && c.sees.all fun w => decide (s.byteAt w.1 = w.2)

/-- The outcome a number picks; a number past the end picks the last. -/
def pickOutcome : HelperOutcome → List HelperOutcome → Nat → HelperOutcome
  | o, [], _ => o
  | o, _ :: _, 0 => o
  | _, p :: rest, n + 1 => pickOutcome p rest n

/-- The outcome of a helper's run (43_jump.md R223 (2)): one of those the launch lists for these arguments and this
memory, else a free value. -/
def helperRun (s : State) (t : HelperTable) (id : BitVec 32) (h : Helper) (args : List Word) : HelperOutcome :=
  match h.known.find? fun c => caseApplies s c args with
  | some c => pickOutcome c.first c.others (Config.helperChoice s.env t id args s.mem)
  | none =>
    { ret := Config.helperResult s.env t id args s.mem, writes := Config.helperWrites s.env t id args s.mem }

/-- Of the bytes a helper writes, those at addresses the platform lets helpers write (43_jump.md R223 (2)). -/
def helperStores (p : Params) (ws : List (Word × Byte)) : List (Word × Byte) :=
  ws.filter fun w => p.helperMayWrite.any fun sp => sp.holds w.1.toNat

/-- The state after a helper's run had this outcome (43_jump.md R223 (2) to (6)). -/
def afterHelper (s : State) (o : HelperOutcome) : State :=
  { s with
    mem := Memory.putAll s.mem (helperStores s.params o.writes)
    regs := (s.regs.set .r0 (.holds o.ret)).forgetArgs
    pc := s.pc + 1 }

/-- A helper call (43_jump.md R223 (1) to (6)). -/
def callHelper (s : State) (t : HelperTable) (id : BitVec 32) : Res :=
  match s.params.helper t id with
  | none => raise (.unknownHelper s.pc id t)
  | some h => readRegs s (argRegs.take h.nargs.val) fun args => .next (afterHelper s (helperRun s t id h args))

/-! ### Program-local calls -/

/-- Unspecified bytes for the `n` addresses below `fp`, the highest address first: the frame of a program-local function
that is used again (43_jump.md R251; log entry 12). -/
def frameContents (env : Nat) : (fp : Word) → (n : Nat) → List (Word × Byte)
  | _, 0 => []
  | fp, n + 1 => (fp - 1, Config.frameByte env (fp - 1)) :: frameContents env (fp - 1) n

/-- The memory a program-local function finds whose frame pointer this is. Where a call at the same depth has used the
frame before, its `STACK_SIZE` bytes are unspecified (43_jump.md R251); at the first use every byte is as last written
(20_memory.md R63 (a)). Where R10 holds nothing no frame is known (log entry 9). -/
def frameMemory (s : State) : (fp : RegVal) → Memory
  | .holds fp =>
    if s.cs.length < s.deepest then Memory.putAll s.mem (frameContents s.env fp s.params.stackSize) else s.mem
  | .unwritten => s.mem

/-- The state at the entry of a program-local function at slot `t` (43_jump.md R224, R249). -/
def enterFunction (s : State) (t : Nat) : State :=
  match s.params.framePolicy with
  | .freshFrame =>
    { s with
      cs := { ret := s.pc + 1, saved := some (s.regs.toSave) } :: s.cs
      regs := s.regs.forgetSaved.set .r10 (s.params.calleeFpAt (s.cs.length + 1))
      mem := frameMemory s (s.params.calleeFpAt (s.cs.length + 1))
      deepest := max s.deepest (s.cs.length + 1)
      pc := t }
  | .none =>
    { s with
      cs := { ret := s.pc + 1, saved := none } :: s.cs
      deepest := max s.deepest (s.cs.length + 1)
      pc := t }

/-- A program-local call (43_jump.md R249): the target is checked before the depth. -/
def callLocal (s : State) (d : Int) : Res :=
  if legalTarget s.text (jumpTarget s d) then
    if s.cs.length < s.params.maxCallDepth then .next (enterFunction s (jumpTarget s d).toNat)
    else raise (.callDepthExceeded s.pc)
  else raise (.badJumpTarget s.pc (jumpTarget s d))

/-- The state back in the caller (43_jump.md R224, R251): R6 to R10 as the frame saved them and R1 to R5 without a
value; a frame that saved nothing changes no register. The frame of the function is not erased. -/
def leaveFunction (s : State) (f : Frame) (rest : List Frame) : State :=
  match f.saved with
  | some sv => { s with cs := rest, regs := s.regs.forgetArgs.restore sv, pc := f.ret }
  | none => { s with cs := rest, pc := f.ret }

/-- `EXIT` (43_jump.md R251): return to the caller, or end the run with R0 as its result (70_reset_and_hazards.md
R422). -/
def exit (s : State) : Res :=
  match s.cs with
  | [] => readReg s .r0 fun r => .next { s with status := .exited r }
  | f :: rest => .next (leaveFunction s f rest)

/-! ### Platform objects -/

/-- The end of a wide load: `x[dst] <- v`; `pc <- pc + 2` (47_imm64.md R350). -/
def writeWide (s : State) (dst : Reg) (v : Word) : Res :=
  .next ((s.setReg dst v).advance 2)

/-- A wide load from a platform function: undefined raises `UnresolvedPlatformRef` (60_exceptions.md R390). -/
def writeResolved (s : State) (dst : Reg) (kind : PlatformRef) (imm : BitVec 32) (v : Option Word) : Res :=
  match v with
  | some a => writeWide s dst a
  | none => raise (.unresolvedPlatformRef s.pc kind imm)

end Sys2Proof.Machine
end

