-- ==== Sys2Proof/Machine/Operands.lean ====
section
/-!
DEFINITION. The operand forms: the source operand of arithmetic and jumps at either width (30_encoding.md R91), the
effective address of loads, stores and atomics (20_memory.md R57), and the shapes of instruction made of them.
-/
namespace Sys2Proof.Machine

/-- The source operand the source bit selects: `K`, the immediate, or `X`, a register (30_encoding.md R87). -/
inductive Operand where
  | k (imm : BitVec 32)
  | x (src : Reg)
deriving DecidableEq, Repr

/-- The source operand of classes ALU and JMP32: `imm` itself, or the low 32 bits of the register (30_encoding.md
R91). -/
def readOperand32 (s : State) (o : Operand) (k : BitVec 32 → Res) : Res :=
  match o with
  | .k imm => k imm
  | .x src => readReg s src fun v => k (v.setWidth 32)

/-- The source operand of classes ALU64 and JMP: the sign-extended `imm`, or the register (30_encoding.md R91). -/
def readOperand64 (s : State) (o : Operand) (k : Word → Res) : Res :=
  match o with
  | .k imm => k (imm.signExtend 64)
  | .x src => readReg s src k

/-- The effective address (20_memory.md R57): wraps modulo 2^64, the displacement in bytes. -/
def effectiveAddr (base : Word) (offset : BitVec 16) : Word := base + offset.signExtend 64

/-- Class ALU (40_arith_alu.md R120): 32-bit operands, the destination first; the result zero-extended. -/
def alu32 (f : BitVec 32 → BitVec 32 → BitVec 32) (dst : Reg) (o : Operand) (s : State) : Res :=
  readReg s dst fun a => readOperand32 s o fun b => writeAndAdvance s dst ((f (a.setWidth 32) b).setWidth 64)

/-- Class ALU64 (41_arith_alu64.md R160): 64-bit operands, the destination first. -/
def alu64 (f : Word → Word → Word) (dst : Reg) (o : Operand) (s : State) : Res :=
  readReg s dst fun a => readOperand64 s o fun b => writeAndAdvance s dst (f a b)

/-- A move of class ALU: the destination is not read (40_arith_alu.md R120, R151). -/
def move32 (f : BitVec 32 → BitVec 32) (dst : Reg) (o : Operand) (s : State) : Res :=
  readOperand32 s o fun b => writeAndAdvance s dst ((f b).setWidth 64)

/-- A move of class ALU64: the destination is not read (41_arith_alu64.md R160, R187). -/
def move64 (f : Word → Word) (dst : Reg) (o : Operand) (s : State) : Res :=
  readOperand64 s o fun b => writeAndAdvance s dst (f b)

/-- An instruction on the destination register alone: NEG, byte swaps (10_state.md R23 (a)). -/
def unary (f : Word → Word) (dst : Reg) (s : State) : Res :=
  readReg s dst fun a => writeAndAdvance s dst (f a)

/-- A conditional jump of class JMP (43_jump.md R221): the operands are read whether or not it is taken. -/
def condJump64 (c : Word → Word → Bool) (dst : Reg) (o : Operand) (offset : BitVec 16) (s : State) : Res :=
  readReg s dst fun a => readOperand64 s o fun b => jumpIf s (c a b) offset

/-- A conditional jump of class JMP32 (44_jump32.md R260): the low 32 bits are compared. -/
def condJump32 (c : BitVec 32 → BitVec 32 → Bool) (dst : Reg) (o : Operand) (offset : BitVec 16) (s : State) :
    Res :=
  readReg s dst fun a => readOperand32 s o fun b => jumpIf s (c (a.setWidth 32) b) offset

/-- A load (45_load_store.md R290, R291): `ext` widens the number read. -/
def loadReg (z : Size) (ext : Word → Word) (dst src : Reg) (offset : BitVec 16) (s : State) : Res :=
  readReg s src fun base =>
    memRead s (effectiveAddr base offset) z fun v => writeAndAdvance s dst (ext v)

/-- A store of an immediate (45_load_store.md R290, R291): the low bytes of the sign-extended `imm`. -/
def storeImm (z : Size) (dst : Reg) (offset : BitVec 16) (imm : BitVec 32) (s : State) : Res :=
  readReg s dst fun base =>
    memWrite s (effectiveAddr base offset) z (imm.signExtend 64) fun t => .next (t.advance 1)

/-- A store of a register (45_load_store.md R290, R291): its low bytes. -/
def storeReg (z : Size) (dst src : Reg) (offset : BitVec 16) (s : State) : Res :=
  readReg s dst fun base => readReg s src fun v =>
    memWrite s (effectiveAddr base offset) z v fun t => .next (t.advance 1)

/-- An atomic without FETCH (46_atomic.md R320, R322): no register is written. -/
def atomic (z : Size) (f : Word → Word → Word) (dst src : Reg) (offset : BitVec 16) (s : State) : Res :=
  readReg s dst fun base => readReg s src fun v =>
    atomicRmw s (effectiveAddr base offset) z (fun old => some (f old v)) fun _ t => .next (t.advance 1)

/-- An atomic with FETCH, XCHG included (46_atomic.md R322, R323): `src` receives the old number, zero-extended. -/
def atomicFetch (z : Size) (f : Word → Word → Word) (dst src : Reg) (offset : BitVec 16) (s : State) : Res :=
  readReg s dst fun base => readReg s src fun v =>
    atomicRmw s (effectiveAddr base offset) z (fun old => some (f old v)) fun old t =>
      writeAndAdvance t src old

/-- CMPXCHG (46_atomic.md R342, R343): `low` is the part of R0 the old number is compared with; R0 receives the old
number in either case, and without a match nothing is written (20_memory.md R58). -/
def atomicCmpxchg (z : Size) (low : Word → Word) (dst src : Reg) (offset : BitVec 16) (s : State) : Res :=
  readReg s dst fun base => readReg s src fun v => readReg s .r0 fun expected =>
    atomicRmw s (effectiveAddr base offset) z (fun old => if old = low expected then some v else none)
      fun old t => writeAndAdvance t .r0 old

end Sys2Proof.Machine
end

