-- ==== Sys2Proof/Machine/Alu32.lean ====
section
/-!
DEFINITION. The meanings of class ALU (40_arith_alu.md): 32-bit arithmetic, the result zero-extended (R120).
-/
namespace Sys2Proof.Machine

/-- `ADD_K_ALU`, 32-bit add (40_arith_alu.md R126). -/
def execAddKAlu (dst : Reg) (imm : BitVec 32) (s : State) : Res :=
  alu32 (fun a b => a + b) dst (.k imm) s

/-- `ADD_X_ALU`, 32-bit add (40_arith_alu.md R127). -/
def execAddXAlu (dst src : Reg) (s : State) : Res :=
  alu32 (fun a b => a + b) dst (.x src) s

/-- `SUB_K_ALU`, 32-bit subtract (40_arith_alu.md R128). -/
def execSubKAlu (dst : Reg) (imm : BitVec 32) (s : State) : Res :=
  alu32 (fun a b => a - b) dst (.k imm) s

/-- `SUB_X_ALU`, 32-bit subtract (40_arith_alu.md R129). -/
def execSubXAlu (dst src : Reg) (s : State) : Res :=
  alu32 (fun a b => a - b) dst (.x src) s

/-- `MUL_K_ALU`, 32-bit multiply (40_arith_alu.md R130). -/
def execMulKAlu (dst : Reg) (imm : BitVec 32) (s : State) : Res :=
  alu32 (fun a b => a * b) dst (.k imm) s

/-- `MUL_X_ALU`, 32-bit multiply (40_arith_alu.md R131). -/
def execMulXAlu (dst src : Reg) (s : State) : Res :=
  alu32 (fun a b => a * b) dst (.x src) s

/-- `DIV_K_ALU`, 32-bit unsigned divide (40_arith_alu.md R132). -/
def execDivKAlu (dst : Reg) (imm : BitVec 32) (s : State) : Res :=
  alu32 udiv dst (.k imm) s

/-- `DIV_X_ALU`, 32-bit unsigned divide (40_arith_alu.md R133). -/
def execDivXAlu (dst src : Reg) (s : State) : Res :=
  alu32 udiv dst (.x src) s

/-- `SDIV_K_ALU`, 32-bit signed divide (40_arith_alu.md R134). -/
def execSdivKAlu (dst : Reg) (imm : BitVec 32) (s : State) : Res :=
  alu32 sdiv dst (.k imm) s

/-- `SDIV_X_ALU`, 32-bit signed divide (40_arith_alu.md R135). -/
def execSdivXAlu (dst src : Reg) (s : State) : Res :=
  alu32 sdiv dst (.x src) s

/-- `OR_K_ALU`, 32-bit bitwise or (40_arith_alu.md R136). -/
def execOrKAlu (dst : Reg) (imm : BitVec 32) (s : State) : Res :=
  alu32 (fun a b => a ||| b) dst (.k imm) s

/-- `OR_X_ALU`, 32-bit bitwise or (40_arith_alu.md R137). -/
def execOrXAlu (dst src : Reg) (s : State) : Res :=
  alu32 (fun a b => a ||| b) dst (.x src) s

/-- `AND_K_ALU`, 32-bit bitwise and (40_arith_alu.md R138). -/
def execAndKAlu (dst : Reg) (imm : BitVec 32) (s : State) : Res :=
  alu32 (fun a b => a &&& b) dst (.k imm) s

/-- `AND_X_ALU`, 32-bit bitwise and (40_arith_alu.md R139). -/
def execAndXAlu (dst src : Reg) (s : State) : Res :=
  alu32 (fun a b => a &&& b) dst (.x src) s

/-- `LSH_K_ALU`, 32-bit shift left (40_arith_alu.md R140). -/
def execLshKAlu (dst : Reg) (imm : BitVec 32) (s : State) : Res :=
  alu32 lsh32 dst (.k imm) s

/-- `LSH_X_ALU`, 32-bit shift left (40_arith_alu.md R141). -/
def execLshXAlu (dst src : Reg) (s : State) : Res :=
  alu32 lsh32 dst (.x src) s

/-- `RSH_K_ALU`, 32-bit logical shift right (40_arith_alu.md R142). -/
def execRshKAlu (dst : Reg) (imm : BitVec 32) (s : State) : Res :=
  alu32 rsh32 dst (.k imm) s

/-- `RSH_X_ALU`, 32-bit logical shift right (40_arith_alu.md R143). -/
def execRshXAlu (dst src : Reg) (s : State) : Res :=
  alu32 rsh32 dst (.x src) s

/-- `NEG_K_ALU`, 32-bit negate (40_arith_alu.md R144). -/
def execNegKAlu (dst : Reg) (s : State) : Res :=
  unary (fun a => (-(a.setWidth 32)).setWidth 64) dst s

/-- `MOD_K_ALU`, 32-bit unsigned modulo (40_arith_alu.md R145). -/
def execModKAlu (dst : Reg) (imm : BitVec 32) (s : State) : Res :=
  alu32 umod dst (.k imm) s

/-- `MOD_X_ALU`, 32-bit unsigned modulo (40_arith_alu.md R146). -/
def execModXAlu (dst src : Reg) (s : State) : Res :=
  alu32 umod dst (.x src) s

/-- `SMOD_K_ALU`, 32-bit signed modulo (40_arith_alu.md R147). -/
def execSmodKAlu (dst : Reg) (imm : BitVec 32) (s : State) : Res :=
  alu32 smod dst (.k imm) s

/-- `SMOD_X_ALU`, 32-bit signed modulo (40_arith_alu.md R148). -/
def execSmodXAlu (dst src : Reg) (s : State) : Res :=
  alu32 smod dst (.x src) s

/-- `XOR_K_ALU`, 32-bit bitwise exclusive or (40_arith_alu.md R149). -/
def execXorKAlu (dst : Reg) (imm : BitVec 32) (s : State) : Res :=
  alu32 (fun a b => a ^^^ b) dst (.k imm) s

/-- `XOR_X_ALU`, 32-bit bitwise exclusive or (40_arith_alu.md R150). -/
def execXorXAlu (dst src : Reg) (s : State) : Res :=
  alu32 (fun a b => a ^^^ b) dst (.x src) s

/-- `MOV_K_ALU`, 32-bit move (40_arith_alu.md R151). -/
def execMovKAlu (dst : Reg) (imm : BitVec 32) (s : State) : Res :=
  move32 (fun b => b) dst (.k imm) s

/-- `MOV_X_ALU`, 32-bit move (40_arith_alu.md R152). -/
def execMovXAlu (dst src : Reg) (s : State) : Res :=
  move32 (fun b => b) dst (.x src) s

/-- `MOVSX8_X_ALU`, 32-bit move with sign extension (40_arith_alu.md R153). -/
def execMovsx8XAlu (dst src : Reg) (s : State) : Res :=
  move32 (signExtendLow 8) dst (.x src) s

/-- `MOVSX16_X_ALU`, 32-bit move with sign extension (40_arith_alu.md R154). -/
def execMovsx16XAlu (dst src : Reg) (s : State) : Res :=
  move32 (signExtendLow 16) dst (.x src) s

/-- `ARSH_K_ALU`, 32-bit arithmetic shift right (40_arith_alu.md R155). -/
def execArshKAlu (dst : Reg) (imm : BitVec 32) (s : State) : Res :=
  alu32 arsh32 dst (.k imm) s

/-- `ARSH_X_ALU`, 32-bit arithmetic shift right (40_arith_alu.md R156). -/
def execArshXAlu (dst src : Reg) (s : State) : Res :=
  alu32 arsh32 dst (.x src) s

end Sys2Proof.Machine
end

