-- ==== Sys2Proof/Machine/Alu64.lean ====
section
/-!
DEFINITION. The meanings of class ALU64 (41_arith_alu64.md): 64-bit arithmetic (R160).
-/
namespace Sys2Proof.Machine

/-- `ADD_K_ALU64`, 64-bit add (41_arith_alu64.md R162). -/
def execAddKAlu64 (dst : Reg) (imm : BitVec 32) (s : State) : Res :=
  alu64 (fun a b => a + b) dst (.k imm) s

/-- `ADD_X_ALU64`, 64-bit add (41_arith_alu64.md R163). -/
def execAddXAlu64 (dst src : Reg) (s : State) : Res :=
  alu64 (fun a b => a + b) dst (.x src) s

/-- `SUB_K_ALU64`, 64-bit subtract (41_arith_alu64.md R164). -/
def execSubKAlu64 (dst : Reg) (imm : BitVec 32) (s : State) : Res :=
  alu64 (fun a b => a - b) dst (.k imm) s

/-- `SUB_X_ALU64`, 64-bit subtract (41_arith_alu64.md R165). -/
def execSubXAlu64 (dst src : Reg) (s : State) : Res :=
  alu64 (fun a b => a - b) dst (.x src) s

/-- `MUL_K_ALU64`, 64-bit multiply (41_arith_alu64.md R166). -/
def execMulKAlu64 (dst : Reg) (imm : BitVec 32) (s : State) : Res :=
  alu64 (fun a b => a * b) dst (.k imm) s

/-- `MUL_X_ALU64`, 64-bit multiply (41_arith_alu64.md R167). -/
def execMulXAlu64 (dst src : Reg) (s : State) : Res :=
  alu64 (fun a b => a * b) dst (.x src) s

/-- `DIV_K_ALU64`, 64-bit unsigned divide (41_arith_alu64.md R168). -/
def execDivKAlu64 (dst : Reg) (imm : BitVec 32) (s : State) : Res :=
  alu64 udiv dst (.k imm) s

/-- `DIV_X_ALU64`, 64-bit unsigned divide (41_arith_alu64.md R169). -/
def execDivXAlu64 (dst src : Reg) (s : State) : Res :=
  alu64 udiv dst (.x src) s

/-- `SDIV_K_ALU64`, 64-bit signed divide (41_arith_alu64.md R170). -/
def execSdivKAlu64 (dst : Reg) (imm : BitVec 32) (s : State) : Res :=
  alu64 sdiv dst (.k imm) s

/-- `SDIV_X_ALU64`, 64-bit signed divide (41_arith_alu64.md R171). -/
def execSdivXAlu64 (dst src : Reg) (s : State) : Res :=
  alu64 sdiv dst (.x src) s

/-- `OR_K_ALU64`, 64-bit bitwise or (41_arith_alu64.md R172). -/
def execOrKAlu64 (dst : Reg) (imm : BitVec 32) (s : State) : Res :=
  alu64 (fun a b => a ||| b) dst (.k imm) s

/-- `OR_X_ALU64`, 64-bit bitwise or (41_arith_alu64.md R173). -/
def execOrXAlu64 (dst src : Reg) (s : State) : Res :=
  alu64 (fun a b => a ||| b) dst (.x src) s

/-- `AND_K_ALU64`, 64-bit bitwise and (41_arith_alu64.md R174). -/
def execAndKAlu64 (dst : Reg) (imm : BitVec 32) (s : State) : Res :=
  alu64 (fun a b => a &&& b) dst (.k imm) s

/-- `AND_X_ALU64`, 64-bit bitwise and (41_arith_alu64.md R175). -/
def execAndXAlu64 (dst src : Reg) (s : State) : Res :=
  alu64 (fun a b => a &&& b) dst (.x src) s

/-- `LSH_K_ALU64`, 64-bit shift left (41_arith_alu64.md R176). -/
def execLshKAlu64 (dst : Reg) (imm : BitVec 32) (s : State) : Res :=
  alu64 lsh64 dst (.k imm) s

/-- `LSH_X_ALU64`, 64-bit shift left (41_arith_alu64.md R177). -/
def execLshXAlu64 (dst src : Reg) (s : State) : Res :=
  alu64 lsh64 dst (.x src) s

/-- `RSH_K_ALU64`, 64-bit logical shift right (41_arith_alu64.md R178). -/
def execRshKAlu64 (dst : Reg) (imm : BitVec 32) (s : State) : Res :=
  alu64 rsh64 dst (.k imm) s

/-- `RSH_X_ALU64`, 64-bit logical shift right (41_arith_alu64.md R179). -/
def execRshXAlu64 (dst src : Reg) (s : State) : Res :=
  alu64 rsh64 dst (.x src) s

/-- `NEG_K_ALU64`, 64-bit negate (41_arith_alu64.md R180). -/
def execNegKAlu64 (dst : Reg) (s : State) : Res :=
  unary (fun a => -a) dst s

/-- `MOD_K_ALU64`, 64-bit unsigned modulo (41_arith_alu64.md R181). -/
def execModKAlu64 (dst : Reg) (imm : BitVec 32) (s : State) : Res :=
  alu64 umod dst (.k imm) s

/-- `MOD_X_ALU64`, 64-bit unsigned modulo (41_arith_alu64.md R182). -/
def execModXAlu64 (dst src : Reg) (s : State) : Res :=
  alu64 umod dst (.x src) s

/-- `SMOD_K_ALU64`, 64-bit signed modulo (41_arith_alu64.md R183). -/
def execSmodKAlu64 (dst : Reg) (imm : BitVec 32) (s : State) : Res :=
  alu64 smod dst (.k imm) s

/-- `SMOD_X_ALU64`, 64-bit signed modulo (41_arith_alu64.md R184). -/
def execSmodXAlu64 (dst src : Reg) (s : State) : Res :=
  alu64 smod dst (.x src) s

/-- `XOR_K_ALU64`, 64-bit bitwise exclusive or (41_arith_alu64.md R185). -/
def execXorKAlu64 (dst : Reg) (imm : BitVec 32) (s : State) : Res :=
  alu64 (fun a b => a ^^^ b) dst (.k imm) s

/-- `XOR_X_ALU64`, 64-bit bitwise exclusive or (41_arith_alu64.md R186). -/
def execXorXAlu64 (dst src : Reg) (s : State) : Res :=
  alu64 (fun a b => a ^^^ b) dst (.x src) s

/-- `MOV_K_ALU64`, 64-bit move (41_arith_alu64.md R187). -/
def execMovKAlu64 (dst : Reg) (imm : BitVec 32) (s : State) : Res :=
  move64 (fun b => b) dst (.k imm) s

/-- `MOV_X_ALU64`, 64-bit move (41_arith_alu64.md R188). -/
def execMovXAlu64 (dst src : Reg) (s : State) : Res :=
  move64 (fun b => b) dst (.x src) s

/-- `MOVSX8_X_ALU64`, 64-bit move with sign extension (41_arith_alu64.md R189). -/
def execMovsx8XAlu64 (dst src : Reg) (s : State) : Res :=
  move64 (signExtendLow 8) dst (.x src) s

/-- `MOVSX16_X_ALU64`, 64-bit move with sign extension (41_arith_alu64.md R190). -/
def execMovsx16XAlu64 (dst src : Reg) (s : State) : Res :=
  move64 (signExtendLow 16) dst (.x src) s

/-- `MOVSX32_X_ALU64`, 64-bit move with sign extension (41_arith_alu64.md R191). -/
def execMovsx32XAlu64 (dst src : Reg) (s : State) : Res :=
  move64 (signExtendLow 32) dst (.x src) s

/-- `ARSH_K_ALU64`, 64-bit arithmetic shift right (41_arith_alu64.md R192). -/
def execArshKAlu64 (dst : Reg) (imm : BitVec 32) (s : State) : Res :=
  alu64 arsh64 dst (.k imm) s

/-- `ARSH_X_ALU64`, 64-bit arithmetic shift right (41_arith_alu64.md R193). -/
def execArshXAlu64 (dst src : Reg) (s : State) : Res :=
  alu64 arsh64 dst (.x src) s

end Sys2Proof.Machine
end

