-- ==== Sys2Proof/Machine/Atomic.lean ====
section
/-!
DEFINITION. The meanings of the atomic operations (46_atomic.md).
-/
namespace Sys2Proof.Machine

/-- `ATOMIC_W_STX_ADD`, atomic add on 32 bits (46_atomic.md R324). -/
def execAtomicWStxAdd (dst src : Reg) (offset : BitVec 16) (s : State) : Res :=
  atomic .w (fun old v => old + v) dst src offset s

/-- `ATOMIC_DW_STX_ADD`, atomic add on 64 bits (46_atomic.md R325). -/
def execAtomicDwStxAdd (dst src : Reg) (offset : BitVec 16) (s : State) : Res :=
  atomic .dw (fun old v => old + v) dst src offset s

/-- `ATOMIC_W_STX_ADD_FETCH`, atomic add on 32 bits returning the old value (46_atomic.md R326). -/
def execAtomicWStxAddFetch (dst src : Reg) (offset : BitVec 16) (s : State) : Res :=
  atomicFetch .w (fun old v => old + v) dst src offset s

/-- `ATOMIC_DW_STX_ADD_FETCH`, atomic add on 64 bits returning the old value (46_atomic.md R327). -/
def execAtomicDwStxAddFetch (dst src : Reg) (offset : BitVec 16) (s : State) : Res :=
  atomicFetch .dw (fun old v => old + v) dst src offset s

/-- `ATOMIC_W_STX_OR`, atomic or on 32 bits (46_atomic.md R328). -/
def execAtomicWStxOr (dst src : Reg) (offset : BitVec 16) (s : State) : Res :=
  atomic .w (fun old v => old ||| v) dst src offset s

/-- `ATOMIC_DW_STX_OR`, atomic or on 64 bits (46_atomic.md R329). -/
def execAtomicDwStxOr (dst src : Reg) (offset : BitVec 16) (s : State) : Res :=
  atomic .dw (fun old v => old ||| v) dst src offset s

/-- `ATOMIC_W_STX_OR_FETCH`, atomic or on 32 bits returning the old value (46_atomic.md R330). -/
def execAtomicWStxOrFetch (dst src : Reg) (offset : BitVec 16) (s : State) : Res :=
  atomicFetch .w (fun old v => old ||| v) dst src offset s

/-- `ATOMIC_DW_STX_OR_FETCH`, atomic or on 64 bits returning the old value (46_atomic.md R331). -/
def execAtomicDwStxOrFetch (dst src : Reg) (offset : BitVec 16) (s : State) : Res :=
  atomicFetch .dw (fun old v => old ||| v) dst src offset s

/-- `ATOMIC_W_STX_AND`, atomic and on 32 bits (46_atomic.md R332). -/
def execAtomicWStxAnd (dst src : Reg) (offset : BitVec 16) (s : State) : Res :=
  atomic .w (fun old v => old &&& v) dst src offset s

/-- `ATOMIC_DW_STX_AND`, atomic and on 64 bits (46_atomic.md R333). -/
def execAtomicDwStxAnd (dst src : Reg) (offset : BitVec 16) (s : State) : Res :=
  atomic .dw (fun old v => old &&& v) dst src offset s

/-- `ATOMIC_W_STX_AND_FETCH`, atomic and on 32 bits returning the old value (46_atomic.md R334). -/
def execAtomicWStxAndFetch (dst src : Reg) (offset : BitVec 16) (s : State) : Res :=
  atomicFetch .w (fun old v => old &&& v) dst src offset s

/-- `ATOMIC_DW_STX_AND_FETCH`, atomic and on 64 bits returning the old value (46_atomic.md R335). -/
def execAtomicDwStxAndFetch (dst src : Reg) (offset : BitVec 16) (s : State) : Res :=
  atomicFetch .dw (fun old v => old &&& v) dst src offset s

/-- `ATOMIC_W_STX_XOR`, atomic xor on 32 bits (46_atomic.md R336). -/
def execAtomicWStxXor (dst src : Reg) (offset : BitVec 16) (s : State) : Res :=
  atomic .w (fun old v => old ^^^ v) dst src offset s

/-- `ATOMIC_DW_STX_XOR`, atomic xor on 64 bits (46_atomic.md R337). -/
def execAtomicDwStxXor (dst src : Reg) (offset : BitVec 16) (s : State) : Res :=
  atomic .dw (fun old v => old ^^^ v) dst src offset s

/-- `ATOMIC_W_STX_XOR_FETCH`, atomic xor on 32 bits returning the old value (46_atomic.md R338). -/
def execAtomicWStxXorFetch (dst src : Reg) (offset : BitVec 16) (s : State) : Res :=
  atomicFetch .w (fun old v => old ^^^ v) dst src offset s

/-- `ATOMIC_DW_STX_XOR_FETCH`, atomic xor on 64 bits returning the old value (46_atomic.md R339). -/
def execAtomicDwStxXorFetch (dst src : Reg) (offset : BitVec 16) (s : State) : Res :=
  atomicFetch .dw (fun old v => old ^^^ v) dst src offset s

/-- `ATOMIC_W_STX_XCHG`, atomic exchange on 32 bits (46_atomic.md R340). -/
def execAtomicWStxXchg (dst src : Reg) (offset : BitVec 16) (s : State) : Res :=
  atomicFetch .w (fun _ v => v) dst src offset s

/-- `ATOMIC_DW_STX_XCHG`, atomic exchange on 64 bits (46_atomic.md R341). -/
def execAtomicDwStxXchg (dst src : Reg) (offset : BitVec 16) (s : State) : Res :=
  atomicFetch .dw (fun _ v => v) dst src offset s

/-- `ATOMIC_W_STX_CMPXCHG`, atomic compare and exchange on 32 bits (46_atomic.md R342). -/
def execAtomicWStxCmpxchg (dst src : Reg) (offset : BitVec 16) (s : State) : Res :=
  atomicCmpxchg .w (zeroExtendLow 32) dst src offset s

/-- `ATOMIC_DW_STX_CMPXCHG`, atomic compare and exchange on 64 bits (46_atomic.md R343). -/
def execAtomicDwStxCmpxchg (dst src : Reg) (offset : BitVec 16) (s : State) : Res :=
  atomicCmpxchg .dw (fun e => e) dst src offset s

end Sys2Proof.Machine
end

