-- ==== Sys2Proof/Machine/ByteSwap.lean ====
section
/-!
DEFINITION. The meanings of the byte swaps (42_byteswap.md R200 to R202).
-/
namespace Sys2Proof.Machine

/-- `END_TO_LE_ALU_16`, converts the low 16 bits of the register between host byte order and little endian (42_byteswap.md R203). -/
def execEndToLeAlu16 (dst : Reg) (s : State) : Res :=
  unary (hostTo s.params.hostEndian .little 2) dst s

/-- `END_TO_LE_ALU_32`, converts the low 32 bits of the register between host byte order and little endian (42_byteswap.md R204). -/
def execEndToLeAlu32 (dst : Reg) (s : State) : Res :=
  unary (hostTo s.params.hostEndian .little 4) dst s

/-- `END_TO_LE_ALU_64`, converts all 64 bits of the register between host byte order and little endian (42_byteswap.md R205). -/
def execEndToLeAlu64 (dst : Reg) (s : State) : Res :=
  unary (hostTo s.params.hostEndian .little 8) dst s

/-- `END_TO_BE_ALU_16`, converts the low 16 bits of the register between host byte order and big endian (42_byteswap.md R206). -/
def execEndToBeAlu16 (dst : Reg) (s : State) : Res :=
  unary (hostTo s.params.hostEndian .big 2) dst s

/-- `END_TO_BE_ALU_32`, converts the low 32 bits of the register between host byte order and big endian (42_byteswap.md R207). -/
def execEndToBeAlu32 (dst : Reg) (s : State) : Res :=
  unary (hostTo s.params.hostEndian .big 4) dst s

/-- `END_TO_BE_ALU_64`, converts all 64 bits of the register between host byte order and big endian (42_byteswap.md R208). -/
def execEndToBeAlu64 (dst : Reg) (s : State) : Res :=
  unary (hostTo s.params.hostEndian .big 8) dst s

/-- `END_ALU64_16`, reverses the order of the low 2 bytes of the register unconditionally (42_byteswap.md R209). -/
def execEndAlu64Swap16 (dst : Reg) (s : State) : Res :=
  unary (bswap 2) dst s

/-- `END_ALU64_32`, reverses the order of the low 4 bytes of the register unconditionally (42_byteswap.md R210). -/
def execEndAlu64Swap32 (dst : Reg) (s : State) : Res :=
  unary (bswap 4) dst s

/-- `END_ALU64_64`, reverses the order of the low 8 bytes of the register unconditionally (42_byteswap.md R211). -/
def execEndAlu64Swap64 (dst : Reg) (s : State) : Res :=
  unary (bswap 8) dst s

end Sys2Proof.Machine
end

