-- ==== Sys2Proof/Machine/Imm64.lean ====
section
/-!
DEFINITION. The meanings of the 64-bit immediate instructions (47_imm64.md).
-/
namespace Sys2Proof.Machine

/-- `IMM_DW_LD_0`, load a 64-bit constant (47_imm64.md R351). -/
def execImmDwLd0 (dst : Reg) (imm nextImm : BitVec 32) (s : State) : Res :=
  writeWide s dst (nextImm ++ imm)

/-- `IMM_DW_LD_1`, load the address of a map named by file descriptor (47_imm64.md R352). -/
def execImmDwLd1 (dst : Reg) (imm : BitVec 32) (s : State) : Res :=
  writeResolved s dst .mapFd imm (s.params.mapByFd.lookup imm)

/-- `IMM_DW_LD_2`, load the address of a byte inside the value of a map named by file descriptor (47_imm64.md R353). -/
def execImmDwLd2 (dst : Reg) (imm nextImm : BitVec 32) (s : State) : Res :=
  writeResolved s dst .mapFd imm
    ((s.params.mapValue (s.params.mapByFd.lookup imm)).map fun v => v + nextImm.signExtend 64)

/-- `IMM_DW_LD_3`, load the address of a platform variable (47_imm64.md R354). -/
def execImmDwLd3 (dst : Reg) (imm : BitVec 32) (s : State) : Res :=
  writeResolved s dst .varId imm (s.params.varAddr.lookup imm)

/-- `IMM_DW_LD_4`, load the address of an instruction (47_imm64.md R355). -/
def execImmDwLd4 (dst : Reg) (imm : BitVec 32) (s : State) : Res :=
  writeResolved s dst .code imm (s.params.codeAddr.lookup (s.pc, imm))

/-- `IMM_DW_LD_5`, load the address of a map named by index (47_imm64.md R356). -/
def execImmDwLd5 (dst : Reg) (imm : BitVec 32) (s : State) : Res :=
  writeResolved s dst .mapIdx imm (s.params.mapByIdx.lookup imm)

/-- `IMM_DW_LD_6`, load the address of a byte inside the value of a map named by index (47_imm64.md R357). -/
def execImmDwLd6 (dst : Reg) (imm nextImm : BitVec 32) (s : State) : Res :=
  writeResolved s dst .mapIdx imm
    ((s.params.mapValue (s.params.mapByIdx.lookup imm)).map fun v => v + nextImm.signExtend 64)

end Sys2Proof.Machine
end

