-- ==== Sys2Proof/Machine/Flags.lean ====
section
/-!
DEFINITION. The machine has no flags (10_state.md R27): every conditional jump compares two operands itself. The eleven
conditions, on operands of either width (43_jump.md R221, 44_jump32.md R260).
-/
namespace Sys2Proof.Machine

/-- JEQ: `dst == src`. -/
def condEq {w : Nat} (a b : BitVec w) : Bool := decide (a = b)

/-- JNE: `dst != src`. -/
def condNe {w : Nat} (a b : BitVec w) : Bool := decide (a ≠ b)

/-- JSET: `dst & src` is not zero. -/
def condSet {w : Nat} (a b : BitVec w) : Bool := decide (a &&& b ≠ 0)

/-- JGT: `dst > src`, unsigned. -/
def condGt {w : Nat} (a b : BitVec w) : Bool := decide (a.toNat > b.toNat)

/-- JGE: `dst >= src`, unsigned. -/
def condGe {w : Nat} (a b : BitVec w) : Bool := decide (a.toNat ≥ b.toNat)

/-- JLT: `dst < src`, unsigned. -/
def condLt {w : Nat} (a b : BitVec w) : Bool := decide (a.toNat < b.toNat)

/-- JLE: `dst <= src`, unsigned. -/
def condLe {w : Nat} (a b : BitVec w) : Bool := decide (a.toNat ≤ b.toNat)

/-- JSGT: `dst > src`, signed. -/
def condSgt {w : Nat} (a b : BitVec w) : Bool := decide (a.toInt > b.toInt)

/-- JSGE: `dst >= src`, signed. -/
def condSge {w : Nat} (a b : BitVec w) : Bool := decide (a.toInt ≥ b.toInt)

/-- JSLT: `dst < src`, signed. -/
def condSlt {w : Nat} (a b : BitVec w) : Bool := decide (a.toInt < b.toInt)

/-- JSLE: `dst <= src`, signed. -/
def condSle {w : Nat} (a b : BitVec w) : Bool := decide (a.toInt ≤ b.toInt)

end Sys2Proof.Machine
end

