-- ==== Sys2Proof/Machine/Jump.lean ====
section
/-!
DEFINITION. The meanings of class JMP (43_jump.md): jumps on 64-bit operands, calls and exit.
-/
namespace Sys2Proof.Machine

/-- `JA_K_JMP`, unconditional jump with a 16-bit displacement (43_jump.md R225). -/
def execJaKJmp (offset : BitVec 16) (s : State) : Res :=
  jump s offset.toInt

/-- `JEQ_K_JMP`, 64-bit compare and jump if equal (43_jump.md R226). -/
def execJeqKJmp (dst : Reg) (imm : BitVec 32) (offset : BitVec 16) (s : State) : Res :=
  condJump64 condEq dst (.k imm) offset s

/-- `JEQ_X_JMP`, 64-bit compare and jump if equal (43_jump.md R227). -/
def execJeqXJmp (dst src : Reg) (offset : BitVec 16) (s : State) : Res :=
  condJump64 condEq dst (.x src) offset s

/-- `JGT_K_JMP`, 64-bit compare and jump if greater than, unsigned (43_jump.md R228). -/
def execJgtKJmp (dst : Reg) (imm : BitVec 32) (offset : BitVec 16) (s : State) : Res :=
  condJump64 condGt dst (.k imm) offset s

/-- `JGT_X_JMP`, 64-bit compare and jump if greater than, unsigned (43_jump.md R229). -/
def execJgtXJmp (dst src : Reg) (offset : BitVec 16) (s : State) : Res :=
  condJump64 condGt dst (.x src) offset s

/-- `JGE_K_JMP`, 64-bit compare and jump if greater than or equal, unsigned (43_jump.md R230). -/
def execJgeKJmp (dst : Reg) (imm : BitVec 32) (offset : BitVec 16) (s : State) : Res :=
  condJump64 condGe dst (.k imm) offset s

/-- `JGE_X_JMP`, 64-bit compare and jump if greater than or equal, unsigned (43_jump.md R231). -/
def execJgeXJmp (dst src : Reg) (offset : BitVec 16) (s : State) : Res :=
  condJump64 condGe dst (.x src) offset s

/-- `JSET_K_JMP`, 64-bit compare and jump if any common bit set (43_jump.md R232). -/
def execJsetKJmp (dst : Reg) (imm : BitVec 32) (offset : BitVec 16) (s : State) : Res :=
  condJump64 condSet dst (.k imm) offset s

/-- `JSET_X_JMP`, 64-bit compare and jump if any common bit set (43_jump.md R233). -/
def execJsetXJmp (dst src : Reg) (offset : BitVec 16) (s : State) : Res :=
  condJump64 condSet dst (.x src) offset s

/-- `JNE_K_JMP`, 64-bit compare and jump if not equal (43_jump.md R234). -/
def execJneKJmp (dst : Reg) (imm : BitVec 32) (offset : BitVec 16) (s : State) : Res :=
  condJump64 condNe dst (.k imm) offset s

/-- `JNE_X_JMP`, 64-bit compare and jump if not equal (43_jump.md R235). -/
def execJneXJmp (dst src : Reg) (offset : BitVec 16) (s : State) : Res :=
  condJump64 condNe dst (.x src) offset s

/-- `JSGT_K_JMP`, 64-bit compare and jump if greater than, signed (43_jump.md R236). -/
def execJsgtKJmp (dst : Reg) (imm : BitVec 32) (offset : BitVec 16) (s : State) : Res :=
  condJump64 condSgt dst (.k imm) offset s

/-- `JSGT_X_JMP`, 64-bit compare and jump if greater than, signed (43_jump.md R237). -/
def execJsgtXJmp (dst src : Reg) (offset : BitVec 16) (s : State) : Res :=
  condJump64 condSgt dst (.x src) offset s

/-- `JSGE_K_JMP`, 64-bit compare and jump if greater than or equal, signed (43_jump.md R238). -/
def execJsgeKJmp (dst : Reg) (imm : BitVec 32) (offset : BitVec 16) (s : State) : Res :=
  condJump64 condSge dst (.k imm) offset s

/-- `JSGE_X_JMP`, 64-bit compare and jump if greater than or equal, signed (43_jump.md R239). -/
def execJsgeXJmp (dst src : Reg) (offset : BitVec 16) (s : State) : Res :=
  condJump64 condSge dst (.x src) offset s

/-- `JLT_K_JMP`, 64-bit compare and jump if less than, unsigned (43_jump.md R240). -/
def execJltKJmp (dst : Reg) (imm : BitVec 32) (offset : BitVec 16) (s : State) : Res :=
  condJump64 condLt dst (.k imm) offset s

/-- `JLT_X_JMP`, 64-bit compare and jump if less than, unsigned (43_jump.md R241). -/
def execJltXJmp (dst src : Reg) (offset : BitVec 16) (s : State) : Res :=
  condJump64 condLt dst (.x src) offset s

/-- `JLE_K_JMP`, 64-bit compare and jump if less than or equal, unsigned (43_jump.md R242). -/
def execJleKJmp (dst : Reg) (imm : BitVec 32) (offset : BitVec 16) (s : State) : Res :=
  condJump64 condLe dst (.k imm) offset s

/-- `JLE_X_JMP`, 64-bit compare and jump if less than or equal, unsigned (43_jump.md R243). -/
def execJleXJmp (dst src : Reg) (offset : BitVec 16) (s : State) : Res :=
  condJump64 condLe dst (.x src) offset s

/-- `JSLT_K_JMP`, 64-bit compare and jump if less than, signed (43_jump.md R244). -/
def execJsltKJmp (dst : Reg) (imm : BitVec 32) (offset : BitVec 16) (s : State) : Res :=
  condJump64 condSlt dst (.k imm) offset s

/-- `JSLT_X_JMP`, 64-bit compare and jump if less than, signed (43_jump.md R245). -/
def execJsltXJmp (dst src : Reg) (offset : BitVec 16) (s : State) : Res :=
  condJump64 condSlt dst (.x src) offset s

/-- `JSLE_K_JMP`, 64-bit compare and jump if less than or equal, signed (43_jump.md R246). -/
def execJsleKJmp (dst : Reg) (imm : BitVec 32) (offset : BitVec 16) (s : State) : Res :=
  condJump64 condSle dst (.k imm) offset s

/-- `JSLE_X_JMP`, 64-bit compare and jump if less than or equal, signed (43_jump.md R247). -/
def execJsleXJmp (dst src : Reg) (offset : BitVec 16) (s : State) : Res :=
  condJump64 condSle dst (.x src) offset s

/-- `CALL_HELPER_K_JMP`, call a helper function by static id (43_jump.md R248). -/
def execCallHelperKJmp (imm : BitVec 32) (s : State) : Res :=
  callHelper s .static imm

/-- `CALL_LOCAL_K_JMP`, call a program-local function (43_jump.md R249). -/
def execCallLocalKJmp (imm : BitVec 32) (s : State) : Res :=
  callLocal s imm.toInt

/-- `CALL_BTF_K_JMP`, call a helper function by BTF id (43_jump.md R250). -/
def execCallBtfKJmp (imm : BitVec 32) (s : State) : Res :=
  callHelper s .btf imm

/-- `EXIT_K_JMP`, return (43_jump.md R251). -/
def execExitKJmp (s : State) : Res :=
  exit s

end Sys2Proof.Machine
end

