-- ==== Sys2Proof/Machine/Jump32.lean ====
section
/-!
DEFINITION. The meanings of class JMP32 (44_jump32.md): jumps on 32-bit operands.
-/
namespace Sys2Proof.Machine

/-- `JA_K_JMP32`, unconditional jump with a 32-bit displacement (44_jump32.md R261). -/
def execJaKJmp32 (imm : BitVec 32) (s : State) : Res :=
  jump s imm.toInt

/-- `JEQ_K_JMP32`, 32-bit compare and jump if equal (44_jump32.md R262). -/
def execJeqKJmp32 (dst : Reg) (imm : BitVec 32) (offset : BitVec 16) (s : State) : Res :=
  condJump32 condEq dst (.k imm) offset s

/-- `JEQ_X_JMP32`, 32-bit compare and jump if equal (44_jump32.md R263). -/
def execJeqXJmp32 (dst src : Reg) (offset : BitVec 16) (s : State) : Res :=
  condJump32 condEq dst (.x src) offset s

/-- `JGT_K_JMP32`, 32-bit compare and jump if greater than, unsigned (44_jump32.md R264). -/
def execJgtKJmp32 (dst : Reg) (imm : BitVec 32) (offset : BitVec 16) (s : State) : Res :=
  condJump32 condGt dst (.k imm) offset s

/-- `JGT_X_JMP32`, 32-bit compare and jump if greater than, unsigned (44_jump32.md R265). -/
def execJgtXJmp32 (dst src : Reg) (offset : BitVec 16) (s : State) : Res :=
  condJump32 condGt dst (.x src) offset s

/-- `JGE_K_JMP32`, 32-bit compare and jump if greater than or equal, unsigned (44_jump32.md R266). -/
def execJgeKJmp32 (dst : Reg) (imm : BitVec 32) (offset : BitVec 16) (s : State) : Res :=
  condJump32 condGe dst (.k imm) offset s

/-- `JGE_X_JMP32`, 32-bit compare and jump if greater than or equal, unsigned (44_jump32.md R267). -/
def execJgeXJmp32 (dst src : Reg) (offset : BitVec 16) (s : State) : Res :=
  condJump32 condGe dst (.x src) offset s

/-- `JSET_K_JMP32`, 32-bit compare and jump if any common bit set (44_jump32.md R268). -/
def execJsetKJmp32 (dst : Reg) (imm : BitVec 32) (offset : BitVec 16) (s : State) : Res :=
  condJump32 condSet dst (.k imm) offset s

/-- `JSET_X_JMP32`, 32-bit compare and jump if any common bit set (44_jump32.md R269). -/
def execJsetXJmp32 (dst src : Reg) (offset : BitVec 16) (s : State) : Res :=
  condJump32 condSet dst (.x src) offset s

/-- `JNE_K_JMP32`, 32-bit compare and jump if not equal (44_jump32.md R270). -/
def execJneKJmp32 (dst : Reg) (imm : BitVec 32) (offset : BitVec 16) (s : State) : Res :=
  condJump32 condNe dst (.k imm) offset s

/-- `JNE_X_JMP32`, 32-bit compare and jump if not equal (44_jump32.md R271). -/
def execJneXJmp32 (dst src : Reg) (offset : BitVec 16) (s : State) : Res :=
  condJump32 condNe dst (.x src) offset s

/-- `JSGT_K_JMP32`, 32-bit compare and jump if greater than, signed (44_jump32.md R272). -/
def execJsgtKJmp32 (dst : Reg) (imm : BitVec 32) (offset : BitVec 16) (s : State) : Res :=
  condJump32 condSgt dst (.k imm) offset s

/-- `JSGT_X_JMP32`, 32-bit compare and jump if greater than, signed (44_jump32.md R273). -/
def execJsgtXJmp32 (dst src : Reg) (offset : BitVec 16) (s : State) : Res :=
  condJump32 condSgt dst (.x src) offset s

/-- `JSGE_K_JMP32`, 32-bit compare and jump if greater than or equal, signed (44_jump32.md R274). -/
def execJsgeKJmp32 (dst : Reg) (imm : BitVec 32) (offset : BitVec 16) (s : State) : Res :=
  condJump32 condSge dst (.k imm) offset s

/-- `JSGE_X_JMP32`, 32-bit compare and jump if greater than or equal, signed (44_jump32.md R275). -/
def execJsgeXJmp32 (dst src : Reg) (offset : BitVec 16) (s : State) : Res :=
  condJump32 condSge dst (.x src) offset s

/-- `JLT_K_JMP32`, 32-bit compare and jump if less than, unsigned (44_jump32.md R276). -/
def execJltKJmp32 (dst : Reg) (imm : BitVec 32) (offset : BitVec 16) (s : State) : Res :=
  condJump32 condLt dst (.k imm) offset s

/-- `JLT_X_JMP32`, 32-bit compare and jump if less than, unsigned (44_jump32.md R277). -/
def execJltXJmp32 (dst src : Reg) (offset : BitVec 16) (s : State) : Res :=
  condJump32 condLt dst (.x src) offset s

/-- `JLE_K_JMP32`, 32-bit compare and jump if less than or equal, unsigned (44_jump32.md R278). -/
def execJleKJmp32 (dst : Reg) (imm : BitVec 32) (offset : BitVec 16) (s : State) : Res :=
  condJump32 condLe dst (.k imm) offset s

/-- `JLE_X_JMP32`, 32-bit compare and jump if less than or equal, unsigned (44_jump32.md R279). -/
def execJleXJmp32 (dst src : Reg) (offset : BitVec 16) (s : State) : Res :=
  condJump32 condLe dst (.x src) offset s

/-- `JSLT_K_JMP32`, 32-bit compare and jump if less than, signed (44_jump32.md R280). -/
def execJsltKJmp32 (dst : Reg) (imm : BitVec 32) (offset : BitVec 16) (s : State) : Res :=
  condJump32 condSlt dst (.k imm) offset s

/-- `JSLT_X_JMP32`, 32-bit compare and jump if less than, signed (44_jump32.md R281). -/
def execJsltXJmp32 (dst src : Reg) (offset : BitVec 16) (s : State) : Res :=
  condJump32 condSlt dst (.x src) offset s

/-- `JSLE_K_JMP32`, 32-bit compare and jump if less than or equal, signed (44_jump32.md R282). -/
def execJsleKJmp32 (dst : Reg) (imm : BitVec 32) (offset : BitVec 16) (s : State) : Res :=
  condJump32 condSle dst (.k imm) offset s

/-- `JSLE_X_JMP32`, 32-bit compare and jump if less than or equal, signed (44_jump32.md R283). -/
def execJsleXJmp32 (dst src : Reg) (offset : BitVec 16) (s : State) : Res :=
  condJump32 condSle dst (.x src) offset s

end Sys2Proof.Machine
end

