-- ==== Sys2Proof/Machine/LoadStore.lean ====
section
/-!
DEFINITION. The meanings of the regular and sign-extension loads and stores (45_load_store.md).
-/
namespace Sys2Proof.Machine

/-- `MEM_W_LDX`, load 4 bytes and zero-extend (45_load_store.md R292). -/
def execMemWLdx (dst src : Reg) (offset : BitVec 16) (s : State) : Res :=
  loadReg .w (fun v => v) dst src offset s

/-- `MEM_H_LDX`, load 2 bytes and zero-extend (45_load_store.md R293). -/
def execMemHLdx (dst src : Reg) (offset : BitVec 16) (s : State) : Res :=
  loadReg .h (fun v => v) dst src offset s

/-- `MEM_B_LDX`, load 1 byte and zero-extend (45_load_store.md R294). -/
def execMemBLdx (dst src : Reg) (offset : BitVec 16) (s : State) : Res :=
  loadReg .b (fun v => v) dst src offset s

/-- `MEM_DW_LDX`, load 8 bytes and zero-extend (45_load_store.md R295). -/
def execMemDwLdx (dst src : Reg) (offset : BitVec 16) (s : State) : Res :=
  loadReg .dw (fun v => v) dst src offset s

/-- `MEM_W_ST`, store an immediate as 4 bytes (45_load_store.md R296). -/
def execMemWSt (dst : Reg) (offset : BitVec 16) (imm : BitVec 32) (s : State) : Res :=
  storeImm .w dst offset imm s

/-- `MEM_H_ST`, store an immediate as 2 bytes (45_load_store.md R297). -/
def execMemHSt (dst : Reg) (offset : BitVec 16) (imm : BitVec 32) (s : State) : Res :=
  storeImm .h dst offset imm s

/-- `MEM_B_ST`, store an immediate as 1 byte (45_load_store.md R298). -/
def execMemBSt (dst : Reg) (offset : BitVec 16) (imm : BitVec 32) (s : State) : Res :=
  storeImm .b dst offset imm s

/-- `MEM_DW_ST`, store an immediate as 8 bytes (45_load_store.md R299). -/
def execMemDwSt (dst : Reg) (offset : BitVec 16) (imm : BitVec 32) (s : State) : Res :=
  storeImm .dw dst offset imm s

/-- `MEM_W_STX`, store the low 4 bytes of a register (45_load_store.md R300). -/
def execMemWStx (dst src : Reg) (offset : BitVec 16) (s : State) : Res :=
  storeReg .w dst src offset s

/-- `MEM_H_STX`, store the low 2 bytes of a register (45_load_store.md R301). -/
def execMemHStx (dst src : Reg) (offset : BitVec 16) (s : State) : Res :=
  storeReg .h dst src offset s

/-- `MEM_B_STX`, store the low 1 byte of a register (45_load_store.md R302). -/
def execMemBStx (dst src : Reg) (offset : BitVec 16) (s : State) : Res :=
  storeReg .b dst src offset s

/-- `MEM_DW_STX`, store the low 8 bytes of a register (45_load_store.md R303). -/
def execMemDwStx (dst src : Reg) (offset : BitVec 16) (s : State) : Res :=
  storeReg .dw dst src offset s

/-- `MEMSX_W_LDX`, load 4 bytes and sign-extend to 64 bits (45_load_store.md R305). -/
def execMemsxWLdx (dst src : Reg) (offset : BitVec 16) (s : State) : Res :=
  loadReg .w (signExtendLow 32) dst src offset s

/-- `MEMSX_H_LDX`, load 2 bytes and sign-extend to 64 bits (45_load_store.md R306). -/
def execMemsxHLdx (dst src : Reg) (offset : BitVec 16) (s : State) : Res :=
  loadReg .h (signExtendLow 16) dst src offset s

/-- `MEMSX_B_LDX`, load 1 byte and sign-extend to 64 bits (45_load_store.md R307). -/
def execMemsxBLdx (dst src : Reg) (offset : BitVec 16) (s : State) : Res :=
  loadReg .b (signExtendLow 8) dst src offset s

end Sys2Proof.Machine
end

