-- ==== Sys2Proof/WellFormed.lean ====
section
/-!
DEFINITION. What makes a decoded instruction one the machine executes (30_encoding.md R96 (l), (m), R98 (5)): its
conformance group is supported, and it does not write register 10 where that is forbidden. Operand fields need no
check: their types admit only what the encoding admits.
-/
namespace Sys2Proof

/-- The conformance group of an instruction: the key `group` of its row in spec/opcode_table.json (00_scope.md R3). -/
def Instr.group : Instr → ConformanceGroup
  | .addKAlu _ _ => .base32
  | .addXAlu _ _ => .base32
  | .subKAlu _ _ => .base32
  | .subXAlu _ _ => .base32
  | .mulKAlu _ _ => .divmul32
  | .mulXAlu _ _ => .divmul32
  | .divKAlu _ _ => .divmul32
  | .divXAlu _ _ => .divmul32
  | .sdivKAlu _ _ => .divmul32
  | .sdivXAlu _ _ => .divmul32
  | .orKAlu _ _ => .base32
  | .orXAlu _ _ => .base32
  | .andKAlu _ _ => .base32
  | .andXAlu _ _ => .base32
  | .lshKAlu _ _ => .base32
  | .lshXAlu _ _ => .base32
  | .rshKAlu _ _ => .base32
  | .rshXAlu _ _ => .base32
  | .negKAlu _ => .base32
  | .modKAlu _ _ => .divmul32
  | .modXAlu _ _ => .divmul32
  | .smodKAlu _ _ => .divmul32
  | .smodXAlu _ _ => .divmul32
  | .xorKAlu _ _ => .base32
  | .xorXAlu _ _ => .base32
  | .movKAlu _ _ => .base32
  | .movXAlu _ _ => .base32
  | .movsx8XAlu _ _ => .base32
  | .movsx16XAlu _ _ => .base32
  | .arshKAlu _ _ => .base32
  | .arshXAlu _ _ => .base32
  | .addKAlu64 _ _ => .base64
  | .addXAlu64 _ _ => .base64
  | .subKAlu64 _ _ => .base64
  | .subXAlu64 _ _ => .base64
  | .mulKAlu64 _ _ => .divmul64
  | .mulXAlu64 _ _ => .divmul64
  | .divKAlu64 _ _ => .divmul64
  | .divXAlu64 _ _ => .divmul64
  | .sdivKAlu64 _ _ => .divmul64
  | .sdivXAlu64 _ _ => .divmul64
  | .orKAlu64 _ _ => .base64
  | .orXAlu64 _ _ => .base64
  | .andKAlu64 _ _ => .base64
  | .andXAlu64 _ _ => .base64
  | .lshKAlu64 _ _ => .base64
  | .lshXAlu64 _ _ => .base64
  | .rshKAlu64 _ _ => .base64
  | .rshXAlu64 _ _ => .base64
  | .negKAlu64 _ => .base64
  | .modKAlu64 _ _ => .divmul64
  | .modXAlu64 _ _ => .divmul64
  | .smodKAlu64 _ _ => .divmul64
  | .smodXAlu64 _ _ => .divmul64
  | .xorKAlu64 _ _ => .base64
  | .xorXAlu64 _ _ => .base64
  | .movKAlu64 _ _ => .base64
  | .movXAlu64 _ _ => .base64
  | .movsx8XAlu64 _ _ => .base64
  | .movsx16XAlu64 _ _ => .base64
  | .movsx32XAlu64 _ _ => .base64
  | .arshKAlu64 _ _ => .base64
  | .arshXAlu64 _ _ => .base64
  | .endToLeAlu16 _ => .base32
  | .endToLeAlu32 _ => .base32
  | .endToLeAlu64 _ => .base64
  | .endToBeAlu16 _ => .base32
  | .endToBeAlu32 _ => .base32
  | .endToBeAlu64 _ => .base64
  | .endAlu64Swap16 _ => .base32
  | .endAlu64Swap32 _ => .base32
  | .endAlu64Swap64 _ => .base64
  | .jaKJmp _ => .base32
  | .jeqKJmp _ _ _ => .base64
  | .jeqXJmp _ _ _ => .base64
  | .jgtKJmp _ _ _ => .base64
  | .jgtXJmp _ _ _ => .base64
  | .jgeKJmp _ _ _ => .base64
  | .jgeXJmp _ _ _ => .base64
  | .jsetKJmp _ _ _ => .base64
  | .jsetXJmp _ _ _ => .base64
  | .jneKJmp _ _ _ => .base64
  | .jneXJmp _ _ _ => .base64
  | .jsgtKJmp _ _ _ => .base64
  | .jsgtXJmp _ _ _ => .base64
  | .jsgeKJmp _ _ _ => .base64
  | .jsgeXJmp _ _ _ => .base64
  | .jltKJmp _ _ _ => .base64
  | .jltXJmp _ _ _ => .base64
  | .jleKJmp _ _ _ => .base64
  | .jleXJmp _ _ _ => .base64
  | .jsltKJmp _ _ _ => .base64
  | .jsltXJmp _ _ _ => .base64
  | .jsleKJmp _ _ _ => .base64
  | .jsleXJmp _ _ _ => .base64
  | .callHelperKJmp _ => .base32
  | .callLocalKJmp _ => .base32
  | .callBtfKJmp _ => .base32
  | .exitKJmp => .base32
  | .jaKJmp32 _ => .base32
  | .jeqKJmp32 _ _ _ => .base32
  | .jeqXJmp32 _ _ _ => .base32
  | .jgtKJmp32 _ _ _ => .base32
  | .jgtXJmp32 _ _ _ => .base32
  | .jgeKJmp32 _ _ _ => .base32
  | .jgeXJmp32 _ _ _ => .base32
  | .jsetKJmp32 _ _ _ => .base32
  | .jsetXJmp32 _ _ _ => .base32
  | .jneKJmp32 _ _ _ => .base32
  | .jneXJmp32 _ _ _ => .base32
  | .jsgtKJmp32 _ _ _ => .base32
  | .jsgtXJmp32 _ _ _ => .base32
  | .jsgeKJmp32 _ _ _ => .base32
  | .jsgeXJmp32 _ _ _ => .base32
  | .jltKJmp32 _ _ _ => .base32
  | .jltXJmp32 _ _ _ => .base32
  | .jleKJmp32 _ _ _ => .base32
  | .jleXJmp32 _ _ _ => .base32
  | .jsltKJmp32 _ _ _ => .base32
  | .jsltXJmp32 _ _ _ => .base32
  | .jsleKJmp32 _ _ _ => .base32
  | .jsleXJmp32 _ _ _ => .base32
  | .memWLdx _ _ _ => .base32
  | .memHLdx _ _ _ => .base32
  | .memBLdx _ _ _ => .base32
  | .memDwLdx _ _ _ => .base64
  | .memWSt _ _ _ => .base32
  | .memHSt _ _ _ => .base32
  | .memBSt _ _ _ => .base32
  | .memDwSt _ _ _ => .base64
  | .memWStx _ _ _ => .base32
  | .memHStx _ _ _ => .base32
  | .memBStx _ _ _ => .base32
  | .memDwStx _ _ _ => .base64
  | .memsxWLdx _ _ _ => .base32
  | .memsxHLdx _ _ _ => .base32
  | .memsxBLdx _ _ _ => .base32
  | .atomicWStxAdd _ _ _ => .atomic32
  | .atomicDwStxAdd _ _ _ => .atomic64
  | .atomicWStxAddFetch _ _ _ => .atomic32
  | .atomicDwStxAddFetch _ _ _ => .atomic64
  | .atomicWStxOr _ _ _ => .atomic32
  | .atomicDwStxOr _ _ _ => .atomic64
  | .atomicWStxOrFetch _ _ _ => .atomic32
  | .atomicDwStxOrFetch _ _ _ => .atomic64
  | .atomicWStxAnd _ _ _ => .atomic32
  | .atomicDwStxAnd _ _ _ => .atomic64
  | .atomicWStxAndFetch _ _ _ => .atomic32
  | .atomicDwStxAndFetch _ _ _ => .atomic64
  | .atomicWStxXor _ _ _ => .atomic32
  | .atomicDwStxXor _ _ _ => .atomic64
  | .atomicWStxXorFetch _ _ _ => .atomic32
  | .atomicDwStxXorFetch _ _ _ => .atomic64
  | .atomicWStxXchg _ _ _ => .atomic32
  | .atomicDwStxXchg _ _ _ => .atomic64
  | .atomicWStxCmpxchg _ _ _ => .atomic32
  | .atomicDwStxCmpxchg _ _ _ => .atomic64
  | .immDwLd0 _ _ _ => .base64
  | .immDwLd1 _ _ => .base64
  | .immDwLd2 _ _ _ => .base64
  | .immDwLd3 _ _ => .base64
  | .immDwLd4 _ _ => .base64
  | .immDwLd5 _ _ => .base64
  | .immDwLd6 _ _ _ => .base64
  | .absWLd _ => .packet
  | .absHLd _ => .packet
  | .absBLd _ => .packet
  | .indWLd _ _ => .packet
  | .indHLd _ _ => .packet
  | .indBLd _ _ => .packet

/-- The general register an instruction's rule writes and names in its encoding, if any (10_state.md R23): `dst` of
arithmetic, byte swaps, loads and wide loads, `src` of the atomics that fetch. CALL, EXIT and CMPXCHG write registers
of their own accord (R249, R251, R342), so they are not restricted. -/
def Instr.writesReg : Instr → Option Reg
  | .addKAlu dst _ => some dst
  | .addXAlu dst _ => some dst
  | .subKAlu dst _ => some dst
  | .subXAlu dst _ => some dst
  | .mulKAlu dst _ => some dst
  | .mulXAlu dst _ => some dst
  | .divKAlu dst _ => some dst
  | .divXAlu dst _ => some dst
  | .sdivKAlu dst _ => some dst
  | .sdivXAlu dst _ => some dst
  | .orKAlu dst _ => some dst
  | .orXAlu dst _ => some dst
  | .andKAlu dst _ => some dst
  | .andXAlu dst _ => some dst
  | .lshKAlu dst _ => some dst
  | .lshXAlu dst _ => some dst
  | .rshKAlu dst _ => some dst
  | .rshXAlu dst _ => some dst
  | .negKAlu dst => some dst
  | .modKAlu dst _ => some dst
  | .modXAlu dst _ => some dst
  | .smodKAlu dst _ => some dst
  | .smodXAlu dst _ => some dst
  | .xorKAlu dst _ => some dst
  | .xorXAlu dst _ => some dst
  | .movKAlu dst _ => some dst
  | .movXAlu dst _ => some dst
  | .movsx8XAlu dst _ => some dst
  | .movsx16XAlu dst _ => some dst
  | .arshKAlu dst _ => some dst
  | .arshXAlu dst _ => some dst
  | .addKAlu64 dst _ => some dst
  | .addXAlu64 dst _ => some dst
  | .subKAlu64 dst _ => some dst
  | .subXAlu64 dst _ => some dst
  | .mulKAlu64 dst _ => some dst
  | .mulXAlu64 dst _ => some dst
  | .divKAlu64 dst _ => some dst
  | .divXAlu64 dst _ => some dst
  | .sdivKAlu64 dst _ => some dst
  | .sdivXAlu64 dst _ => some dst
  | .orKAlu64 dst _ => some dst
  | .orXAlu64 dst _ => some dst
  | .andKAlu64 dst _ => some dst
  | .andXAlu64 dst _ => some dst
  | .lshKAlu64 dst _ => some dst
  | .lshXAlu64 dst _ => some dst
  | .rshKAlu64 dst _ => some dst
  | .rshXAlu64 dst _ => some dst
  | .negKAlu64 dst => some dst
  | .modKAlu64 dst _ => some dst
  | .modXAlu64 dst _ => some dst
  | .smodKAlu64 dst _ => some dst
  | .smodXAlu64 dst _ => some dst
  | .xorKAlu64 dst _ => some dst
  | .xorXAlu64 dst _ => some dst
  | .movKAlu64 dst _ => some dst
  | .movXAlu64 dst _ => some dst
  | .movsx8XAlu64 dst _ => some dst
  | .movsx16XAlu64 dst _ => some dst
  | .movsx32XAlu64 dst _ => some dst
  | .arshKAlu64 dst _ => some dst
  | .arshXAlu64 dst _ => some dst
  | .endToLeAlu16 dst => some dst
  | .endToLeAlu32 dst => some dst
  | .endToLeAlu64 dst => some dst
  | .endToBeAlu16 dst => some dst
  | .endToBeAlu32 dst => some dst
  | .endToBeAlu64 dst => some dst
  | .endAlu64Swap16 dst => some dst
  | .endAlu64Swap32 dst => some dst
  | .endAlu64Swap64 dst => some dst
  | .jaKJmp _ => none
  | .jeqKJmp _ _ _ => none
  | .jeqXJmp _ _ _ => none
  | .jgtKJmp _ _ _ => none
  | .jgtXJmp _ _ _ => none
  | .jgeKJmp _ _ _ => none
  | .jgeXJmp _ _ _ => none
  | .jsetKJmp _ _ _ => none
  | .jsetXJmp _ _ _ => none
  | .jneKJmp _ _ _ => none
  | .jneXJmp _ _ _ => none
  | .jsgtKJmp _ _ _ => none
  | .jsgtXJmp _ _ _ => none
  | .jsgeKJmp _ _ _ => none
  | .jsgeXJmp _ _ _ => none
  | .jltKJmp _ _ _ => none
  | .jltXJmp _ _ _ => none
  | .jleKJmp _ _ _ => none
  | .jleXJmp _ _ _ => none
  | .jsltKJmp _ _ _ => none
  | .jsltXJmp _ _ _ => none
  | .jsleKJmp _ _ _ => none
  | .jsleXJmp _ _ _ => none
  | .callHelperKJmp _ => none
  | .callLocalKJmp _ => none
  | .callBtfKJmp _ => none
  | .exitKJmp => none
  | .jaKJmp32 _ => none
  | .jeqKJmp32 _ _ _ => none
  | .jeqXJmp32 _ _ _ => none
  | .jgtKJmp32 _ _ _ => none
  | .jgtXJmp32 _ _ _ => none
  | .jgeKJmp32 _ _ _ => none
  | .jgeXJmp32 _ _ _ => none
  | .jsetKJmp32 _ _ _ => none
  | .jsetXJmp32 _ _ _ => none
  | .jneKJmp32 _ _ _ => none
  | .jneXJmp32 _ _ _ => none
  | .jsgtKJmp32 _ _ _ => none
  | .jsgtXJmp32 _ _ _ => none
  | .jsgeKJmp32 _ _ _ => none
  | .jsgeXJmp32 _ _ _ => none
  | .jltKJmp32 _ _ _ => none
  | .jltXJmp32 _ _ _ => none
  | .jleKJmp32 _ _ _ => none
  | .jleXJmp32 _ _ _ => none
  | .jsltKJmp32 _ _ _ => none
  | .jsltXJmp32 _ _ _ => none
  | .jsleKJmp32 _ _ _ => none
  | .jsleXJmp32 _ _ _ => none
  | .memWLdx dst _ _ => some dst
  | .memHLdx dst _ _ => some dst
  | .memBLdx dst _ _ => some dst
  | .memDwLdx dst _ _ => some dst
  | .memWSt _ _ _ => none
  | .memHSt _ _ _ => none
  | .memBSt _ _ _ => none
  | .memDwSt _ _ _ => none
  | .memWStx _ _ _ => none
  | .memHStx _ _ _ => none
  | .memBStx _ _ _ => none
  | .memDwStx _ _ _ => none
  | .memsxWLdx dst _ _ => some dst
  | .memsxHLdx dst _ _ => some dst
  | .memsxBLdx dst _ _ => some dst
  | .atomicWStxAdd _ _ _ => none
  | .atomicDwStxAdd _ _ _ => none
  | .atomicWStxAddFetch _ src _ => some src
  | .atomicDwStxAddFetch _ src _ => some src
  | .atomicWStxOr _ _ _ => none
  | .atomicDwStxOr _ _ _ => none
  | .atomicWStxOrFetch _ src _ => some src
  | .atomicDwStxOrFetch _ src _ => some src
  | .atomicWStxAnd _ _ _ => none
  | .atomicDwStxAnd _ _ _ => none
  | .atomicWStxAndFetch _ src _ => some src
  | .atomicDwStxAndFetch _ src _ => some src
  | .atomicWStxXor _ _ _ => none
  | .atomicDwStxXor _ _ _ => none
  | .atomicWStxXorFetch _ src _ => some src
  | .atomicDwStxXorFetch _ src _ => some src
  | .atomicWStxXchg _ src _ => some src
  | .atomicDwStxXchg _ src _ => some src
  | .atomicWStxCmpxchg _ _ _ => none
  | .atomicDwStxCmpxchg _ _ _ => none
  | .immDwLd0 dst _ _ => some dst
  | .immDwLd1 dst _ => some dst
  | .immDwLd2 dst _ _ => some dst
  | .immDwLd3 dst _ => some dst
  | .immDwLd4 dst _ => some dst
  | .immDwLd5 dst _ => some dst
  | .immDwLd6 dst _ _ => some dst
  | .absWLd _ => none
  | .absHLd _ => none
  | .absBLd _ => none
  | .indWLd _ _ => none
  | .indHLd _ _ => none
  | .indBLd _ _ => none

/-- The groups whose support includes all instructions of `g`: `g` itself and the group that contains it
(00_scope.md R2: base32 in base64, atomic32 in atomic64, divmul32 in divmul64). -/
def ConformanceGroup.within : ConformanceGroup → List ConformanceGroup
  | .base32 => [.base32, .base64]
  | .base64 => [.base64]
  | .atomic32 => [.atomic32, .atomic64]
  | .atomic64 => [.atomic64]
  | .divmul32 => [.divmul32, .divmul64]
  | .divmul64 => [.divmul64]
  | .packet => [.packet]

/-- Is the group supported under these parameters? DEDUCED from 00_scope.md R2 that a listed group brings the groups
it includes (log entry 7). -/
def Params.supports (p : Params) (g : ConformanceGroup) : Bool :=
  g.within.any fun h => decide (h ∈ p.groups)

/-- Would the instruction write register 10 while `R10_READONLY` holds (10_state.md R23 (g))? -/
def Instr.writesReadOnly (p : Params) (i : Instr) : Bool :=
  p.r10Readonly && decide (i.writesReg = some .r10)

/-- The checks on a decoded instruction whose failure is `IllegalInstruction` (30_encoding.md R98 (5)). -/
def Instr.wellFormed (p : Params) (i : Instr) : Bool :=
  p.supports i.group && !i.writesReadOnly p

end Sys2Proof
end

