-- ==== Sys2Proof/Machine/Packet.lean ====
section
/-!
DEFINITION. The meanings of the legacy packet access instructions (48_packet.md), which the spec gives no effect.
-/
namespace Sys2Proof.Machine

/-- What executing a packet instruction does (48_packet.md R365): nothing in the spec says what it loads, so it ends
the run, as an illegal instruction where the group is not supported and as refused where it is. -/
def packet (i : Instr) (s : State) : Res :=
  if s.params.supports .packet then refuse .packetSemanticsNotInSource
  else raise (.illegalInstruction s.pc i.fields.word none)

/-- `ABS_W_LD`, legacy packet access (absolute), 4 bytes (48_packet.md R366). -/
def execAbsWLd (imm : BitVec 32) (s : State) : Res :=
  packet (.absWLd imm) s

/-- `ABS_H_LD`, legacy packet access (absolute), 2 bytes (48_packet.md R367). -/
def execAbsHLd (imm : BitVec 32) (s : State) : Res :=
  packet (.absHLd imm) s

/-- `ABS_B_LD`, legacy packet access (absolute), 1 byte (48_packet.md R368). -/
def execAbsBLd (imm : BitVec 32) (s : State) : Res :=
  packet (.absBLd imm) s

/-- `IND_W_LD`, legacy packet access (indirect), 4 bytes (48_packet.md R369). -/
def execIndWLd (src : Reg) (imm : BitVec 32) (s : State) : Res :=
  packet (.indWLd src imm) s

/-- `IND_H_LD`, legacy packet access (indirect), 2 bytes (48_packet.md R370). -/
def execIndHLd (src : Reg) (imm : BitVec 32) (s : State) : Res :=
  packet (.indHLd src imm) s

/-- `IND_B_LD`, legacy packet access (indirect), 1 byte (48_packet.md R371). -/
def execIndBLd (src : Reg) (imm : BitVec 32) (s : State) : Res :=
  packet (.indBLd src imm) s

end Sys2Proof.Machine
end

