-- ==== Sys2Proof/Machine/Dispatch.lean ====
section
/-!
DEFINITION. Dispatch: one arm for each instruction, each one direct call of its meaning.
-/
namespace Sys2Proof.Machine

/-- What an instruction does in a state. -/
def exec (i : Instr) (s : State) : Host.Outcome State Fault Refusal :=
  match i with
  -- 40_arith_alu.md
  | .addKAlu dst imm => Sys2Proof.Machine.execAddKAlu dst imm s
  | .addXAlu dst src => Sys2Proof.Machine.execAddXAlu dst src s
  | .subKAlu dst imm => Sys2Proof.Machine.execSubKAlu dst imm s
  | .subXAlu dst src => Sys2Proof.Machine.execSubXAlu dst src s
  | .mulKAlu dst imm => Sys2Proof.Machine.execMulKAlu dst imm s
  | .mulXAlu dst src => Sys2Proof.Machine.execMulXAlu dst src s
  | .divKAlu dst imm => Sys2Proof.Machine.execDivKAlu dst imm s
  | .divXAlu dst src => Sys2Proof.Machine.execDivXAlu dst src s
  | .sdivKAlu dst imm => Sys2Proof.Machine.execSdivKAlu dst imm s
  | .sdivXAlu dst src => Sys2Proof.Machine.execSdivXAlu dst src s
  | .orKAlu dst imm => Sys2Proof.Machine.execOrKAlu dst imm s
  | .orXAlu dst src => Sys2Proof.Machine.execOrXAlu dst src s
  | .andKAlu dst imm => Sys2Proof.Machine.execAndKAlu dst imm s
  | .andXAlu dst src => Sys2Proof.Machine.execAndXAlu dst src s
  | .lshKAlu dst imm => Sys2Proof.Machine.execLshKAlu dst imm s
  | .lshXAlu dst src => Sys2Proof.Machine.execLshXAlu dst src s
  | .rshKAlu dst imm => Sys2Proof.Machine.execRshKAlu dst imm s
  | .rshXAlu dst src => Sys2Proof.Machine.execRshXAlu dst src s
  | .negKAlu dst => Sys2Proof.Machine.execNegKAlu dst s
  | .modKAlu dst imm => Sys2Proof.Machine.execModKAlu dst imm s
  | .modXAlu dst src => Sys2Proof.Machine.execModXAlu dst src s
  | .smodKAlu dst imm => Sys2Proof.Machine.execSmodKAlu dst imm s
  | .smodXAlu dst src => Sys2Proof.Machine.execSmodXAlu dst src s
  | .xorKAlu dst imm => Sys2Proof.Machine.execXorKAlu dst imm s
  | .xorXAlu dst src => Sys2Proof.Machine.execXorXAlu dst src s
  | .movKAlu dst imm => Sys2Proof.Machine.execMovKAlu dst imm s
  | .movXAlu dst src => Sys2Proof.Machine.execMovXAlu dst src s
  | .movsx8XAlu dst src => Sys2Proof.Machine.execMovsx8XAlu dst src s
  | .movsx16XAlu dst src => Sys2Proof.Machine.execMovsx16XAlu dst src s
  | .arshKAlu dst imm => Sys2Proof.Machine.execArshKAlu dst imm s
  | .arshXAlu dst src => Sys2Proof.Machine.execArshXAlu dst src s
  -- 41_arith_alu64.md
  | .addKAlu64 dst imm => Sys2Proof.Machine.execAddKAlu64 dst imm s
  | .addXAlu64 dst src => Sys2Proof.Machine.execAddXAlu64 dst src s
  | .subKAlu64 dst imm => Sys2Proof.Machine.execSubKAlu64 dst imm s
  | .subXAlu64 dst src => Sys2Proof.Machine.execSubXAlu64 dst src s
  | .mulKAlu64 dst imm => Sys2Proof.Machine.execMulKAlu64 dst imm s
  | .mulXAlu64 dst src => Sys2Proof.Machine.execMulXAlu64 dst src s
  | .divKAlu64 dst imm => Sys2Proof.Machine.execDivKAlu64 dst imm s
  | .divXAlu64 dst src => Sys2Proof.Machine.execDivXAlu64 dst src s
  | .sdivKAlu64 dst imm => Sys2Proof.Machine.execSdivKAlu64 dst imm s
  | .sdivXAlu64 dst src => Sys2Proof.Machine.execSdivXAlu64 dst src s
  | .orKAlu64 dst imm => Sys2Proof.Machine.execOrKAlu64 dst imm s
  | .orXAlu64 dst src => Sys2Proof.Machine.execOrXAlu64 dst src s
  | .andKAlu64 dst imm => Sys2Proof.Machine.execAndKAlu64 dst imm s
  | .andXAlu64 dst src => Sys2Proof.Machine.execAndXAlu64 dst src s
  | .lshKAlu64 dst imm => Sys2Proof.Machine.execLshKAlu64 dst imm s
  | .lshXAlu64 dst src => Sys2Proof.Machine.execLshXAlu64 dst src s
  | .rshKAlu64 dst imm => Sys2Proof.Machine.execRshKAlu64 dst imm s
  | .rshXAlu64 dst src => Sys2Proof.Machine.execRshXAlu64 dst src s
  | .negKAlu64 dst => Sys2Proof.Machine.execNegKAlu64 dst s
  | .modKAlu64 dst imm => Sys2Proof.Machine.execModKAlu64 dst imm s
  | .modXAlu64 dst src => Sys2Proof.Machine.execModXAlu64 dst src s
  | .smodKAlu64 dst imm => Sys2Proof.Machine.execSmodKAlu64 dst imm s
  | .smodXAlu64 dst src => Sys2Proof.Machine.execSmodXAlu64 dst src s
  | .xorKAlu64 dst imm => Sys2Proof.Machine.execXorKAlu64 dst imm s
  | .xorXAlu64 dst src => Sys2Proof.Machine.execXorXAlu64 dst src s
  | .movKAlu64 dst imm => Sys2Proof.Machine.execMovKAlu64 dst imm s
  | .movXAlu64 dst src => Sys2Proof.Machine.execMovXAlu64 dst src s
  | .movsx8XAlu64 dst src => Sys2Proof.Machine.execMovsx8XAlu64 dst src s
  | .movsx16XAlu64 dst src => Sys2Proof.Machine.execMovsx16XAlu64 dst src s
  | .movsx32XAlu64 dst src => Sys2Proof.Machine.execMovsx32XAlu64 dst src s
  | .arshKAlu64 dst imm => Sys2Proof.Machine.execArshKAlu64 dst imm s
  | .arshXAlu64 dst src => Sys2Proof.Machine.execArshXAlu64 dst src s
  -- 42_byteswap.md
  | .endToLeAlu16 dst => Sys2Proof.Machine.execEndToLeAlu16 dst s
  | .endToLeAlu32 dst => Sys2Proof.Machine.execEndToLeAlu32 dst s
  | .endToLeAlu64 dst => Sys2Proof.Machine.execEndToLeAlu64 dst s
  | .endToBeAlu16 dst => Sys2Proof.Machine.execEndToBeAlu16 dst s
  | .endToBeAlu32 dst => Sys2Proof.Machine.execEndToBeAlu32 dst s
  | .endToBeAlu64 dst => Sys2Proof.Machine.execEndToBeAlu64 dst s
  | .endAlu64Swap16 dst => Sys2Proof.Machine.execEndAlu64Swap16 dst s
  | .endAlu64Swap32 dst => Sys2Proof.Machine.execEndAlu64Swap32 dst s
  | .endAlu64Swap64 dst => Sys2Proof.Machine.execEndAlu64Swap64 dst s
  -- 43_jump.md
  | .jaKJmp offset => Sys2Proof.Machine.execJaKJmp offset s
  | .jeqKJmp dst imm offset => Sys2Proof.Machine.execJeqKJmp dst imm offset s
  | .jeqXJmp dst src offset => Sys2Proof.Machine.execJeqXJmp dst src offset s
  | .jgtKJmp dst imm offset => Sys2Proof.Machine.execJgtKJmp dst imm offset s
  | .jgtXJmp dst src offset => Sys2Proof.Machine.execJgtXJmp dst src offset s
  | .jgeKJmp dst imm offset => Sys2Proof.Machine.execJgeKJmp dst imm offset s
  | .jgeXJmp dst src offset => Sys2Proof.Machine.execJgeXJmp dst src offset s
  | .jsetKJmp dst imm offset => Sys2Proof.Machine.execJsetKJmp dst imm offset s
  | .jsetXJmp dst src offset => Sys2Proof.Machine.execJsetXJmp dst src offset s
  | .jneKJmp dst imm offset => Sys2Proof.Machine.execJneKJmp dst imm offset s
  | .jneXJmp dst src offset => Sys2Proof.Machine.execJneXJmp dst src offset s
  | .jsgtKJmp dst imm offset => Sys2Proof.Machine.execJsgtKJmp dst imm offset s
  | .jsgtXJmp dst src offset => Sys2Proof.Machine.execJsgtXJmp dst src offset s
  | .jsgeKJmp dst imm offset => Sys2Proof.Machine.execJsgeKJmp dst imm offset s
  | .jsgeXJmp dst src offset => Sys2Proof.Machine.execJsgeXJmp dst src offset s
  | .jltKJmp dst imm offset => Sys2Proof.Machine.execJltKJmp dst imm offset s
  | .jltXJmp dst src offset => Sys2Proof.Machine.execJltXJmp dst src offset s
  | .jleKJmp dst imm offset => Sys2Proof.Machine.execJleKJmp dst imm offset s
  | .jleXJmp dst src offset => Sys2Proof.Machine.execJleXJmp dst src offset s
  | .jsltKJmp dst imm offset => Sys2Proof.Machine.execJsltKJmp dst imm offset s
  | .jsltXJmp dst src offset => Sys2Proof.Machine.execJsltXJmp dst src offset s
  | .jsleKJmp dst imm offset => Sys2Proof.Machine.execJsleKJmp dst imm offset s
  | .jsleXJmp dst src offset => Sys2Proof.Machine.execJsleXJmp dst src offset s
  | .callHelperKJmp imm => Sys2Proof.Machine.execCallHelperKJmp imm s
  | .callLocalKJmp imm => Sys2Proof.Machine.execCallLocalKJmp imm s
  | .callBtfKJmp imm => Sys2Proof.Machine.execCallBtfKJmp imm s
  | .exitKJmp => Sys2Proof.Machine.execExitKJmp s
  -- 44_jump32.md
  | .jaKJmp32 imm => Sys2Proof.Machine.execJaKJmp32 imm s
  | .jeqKJmp32 dst imm offset => Sys2Proof.Machine.execJeqKJmp32 dst imm offset s
  | .jeqXJmp32 dst src offset => Sys2Proof.Machine.execJeqXJmp32 dst src offset s
  | .jgtKJmp32 dst imm offset => Sys2Proof.Machine.execJgtKJmp32 dst imm offset s
  | .jgtXJmp32 dst src offset => Sys2Proof.Machine.execJgtXJmp32 dst src offset s
  | .jgeKJmp32 dst imm offset => Sys2Proof.Machine.execJgeKJmp32 dst imm offset s
  | .jgeXJmp32 dst src offset => Sys2Proof.Machine.execJgeXJmp32 dst src offset s
  | .jsetKJmp32 dst imm offset => Sys2Proof.Machine.execJsetKJmp32 dst imm offset s
  | .jsetXJmp32 dst src offset => Sys2Proof.Machine.execJsetXJmp32 dst src offset s
  | .jneKJmp32 dst imm offset => Sys2Proof.Machine.execJneKJmp32 dst imm offset s
  | .jneXJmp32 dst src offset => Sys2Proof.Machine.execJneXJmp32 dst src offset s
  | .jsgtKJmp32 dst imm offset => Sys2Proof.Machine.execJsgtKJmp32 dst imm offset s
  | .jsgtXJmp32 dst src offset => Sys2Proof.Machine.execJsgtXJmp32 dst src offset s
  | .jsgeKJmp32 dst imm offset => Sys2Proof.Machine.execJsgeKJmp32 dst imm offset s
  | .jsgeXJmp32 dst src offset => Sys2Proof.Machine.execJsgeXJmp32 dst src offset s
  | .jltKJmp32 dst imm offset => Sys2Proof.Machine.execJltKJmp32 dst imm offset s
  | .jltXJmp32 dst src offset => Sys2Proof.Machine.execJltXJmp32 dst src offset s
  | .jleKJmp32 dst imm offset => Sys2Proof.Machine.execJleKJmp32 dst imm offset s
  | .jleXJmp32 dst src offset => Sys2Proof.Machine.execJleXJmp32 dst src offset s
  | .jsltKJmp32 dst imm offset => Sys2Proof.Machine.execJsltKJmp32 dst imm offset s
  | .jsltXJmp32 dst src offset => Sys2Proof.Machine.execJsltXJmp32 dst src offset s
  | .jsleKJmp32 dst imm offset => Sys2Proof.Machine.execJsleKJmp32 dst imm offset s
  | .jsleXJmp32 dst src offset => Sys2Proof.Machine.execJsleXJmp32 dst src offset s
  -- 45_load_store.md
  | .memWLdx dst src offset => Sys2Proof.Machine.execMemWLdx dst src offset s
  | .memHLdx dst src offset => Sys2Proof.Machine.execMemHLdx dst src offset s
  | .memBLdx dst src offset => Sys2Proof.Machine.execMemBLdx dst src offset s
  | .memDwLdx dst src offset => Sys2Proof.Machine.execMemDwLdx dst src offset s
  | .memWSt dst offset imm => Sys2Proof.Machine.execMemWSt dst offset imm s
  | .memHSt dst offset imm => Sys2Proof.Machine.execMemHSt dst offset imm s
  | .memBSt dst offset imm => Sys2Proof.Machine.execMemBSt dst offset imm s
  | .memDwSt dst offset imm => Sys2Proof.Machine.execMemDwSt dst offset imm s
  | .memWStx dst src offset => Sys2Proof.Machine.execMemWStx dst src offset s
  | .memHStx dst src offset => Sys2Proof.Machine.execMemHStx dst src offset s
  | .memBStx dst src offset => Sys2Proof.Machine.execMemBStx dst src offset s
  | .memDwStx dst src offset => Sys2Proof.Machine.execMemDwStx dst src offset s
  | .memsxWLdx dst src offset => Sys2Proof.Machine.execMemsxWLdx dst src offset s
  | .memsxHLdx dst src offset => Sys2Proof.Machine.execMemsxHLdx dst src offset s
  | .memsxBLdx dst src offset => Sys2Proof.Machine.execMemsxBLdx dst src offset s
  -- 46_atomic.md
  | .atomicWStxAdd dst src offset => Sys2Proof.Machine.execAtomicWStxAdd dst src offset s
  | .atomicDwStxAdd dst src offset => Sys2Proof.Machine.execAtomicDwStxAdd dst src offset s
  | .atomicWStxAddFetch dst src offset => Sys2Proof.Machine.execAtomicWStxAddFetch dst src offset s
  | .atomicDwStxAddFetch dst src offset => Sys2Proof.Machine.execAtomicDwStxAddFetch dst src offset s
  | .atomicWStxOr dst src offset => Sys2Proof.Machine.execAtomicWStxOr dst src offset s
  | .atomicDwStxOr dst src offset => Sys2Proof.Machine.execAtomicDwStxOr dst src offset s
  | .atomicWStxOrFetch dst src offset => Sys2Proof.Machine.execAtomicWStxOrFetch dst src offset s
  | .atomicDwStxOrFetch dst src offset => Sys2Proof.Machine.execAtomicDwStxOrFetch dst src offset s
  | .atomicWStxAnd dst src offset => Sys2Proof.Machine.execAtomicWStxAnd dst src offset s
  | .atomicDwStxAnd dst src offset => Sys2Proof.Machine.execAtomicDwStxAnd dst src offset s
  | .atomicWStxAndFetch dst src offset => Sys2Proof.Machine.execAtomicWStxAndFetch dst src offset s
  | .atomicDwStxAndFetch dst src offset => Sys2Proof.Machine.execAtomicDwStxAndFetch dst src offset s
  | .atomicWStxXor dst src offset => Sys2Proof.Machine.execAtomicWStxXor dst src offset s
  | .atomicDwStxXor dst src offset => Sys2Proof.Machine.execAtomicDwStxXor dst src offset s
  | .atomicWStxXorFetch dst src offset => Sys2Proof.Machine.execAtomicWStxXorFetch dst src offset s
  | .atomicDwStxXorFetch dst src offset => Sys2Proof.Machine.execAtomicDwStxXorFetch dst src offset s
  | .atomicWStxXchg dst src offset => Sys2Proof.Machine.execAtomicWStxXchg dst src offset s
  | .atomicDwStxXchg dst src offset => Sys2Proof.Machine.execAtomicDwStxXchg dst src offset s
  | .atomicWStxCmpxchg dst src offset => Sys2Proof.Machine.execAtomicWStxCmpxchg dst src offset s
  | .atomicDwStxCmpxchg dst src offset => Sys2Proof.Machine.execAtomicDwStxCmpxchg dst src offset s
  -- 47_imm64.md
  | .immDwLd0 dst imm nextImm => Sys2Proof.Machine.execImmDwLd0 dst imm nextImm s
  | .immDwLd1 dst imm => Sys2Proof.Machine.execImmDwLd1 dst imm s
  | .immDwLd2 dst imm nextImm => Sys2Proof.Machine.execImmDwLd2 dst imm nextImm s
  | .immDwLd3 dst imm => Sys2Proof.Machine.execImmDwLd3 dst imm s
  | .immDwLd4 dst imm => Sys2Proof.Machine.execImmDwLd4 dst imm s
  | .immDwLd5 dst imm => Sys2Proof.Machine.execImmDwLd5 dst imm s
  | .immDwLd6 dst imm nextImm => Sys2Proof.Machine.execImmDwLd6 dst imm nextImm s
  -- 48_packet.md
  | .absWLd imm => Sys2Proof.Machine.execAbsWLd imm s
  | .absHLd imm => Sys2Proof.Machine.execAbsHLd imm s
  | .absBLd imm => Sys2Proof.Machine.execAbsBLd imm s
  | .indWLd src imm => Sys2Proof.Machine.execIndWLd src imm s
  | .indHLd src imm => Sys2Proof.Machine.execIndHLd src imm s
  | .indBLd src imm => Sys2Proof.Machine.execIndBLd src imm s

end Sys2Proof.Machine
end

