-- ==== Sys2Proof/Machine/Fetch.lean ====
section
/-!
DEFINITION. Fetching and decoding the instruction at the pc (30_encoding.md R98), and placing an instruction where the
fetch finds it.
-/
namespace Sys2Proof.Machine

/-- The instruction at the pc, or the fault the fetch raises (30_encoding.md R98 (1) to (5)): past the end and a wide
instruction cut off before a word that spells no instruction (60_exceptions.md R392). -/
def fetch (s : State) : Except Fault Instr :=
  match s.text[s.pc]? with
  | none => .error (.fetchOutOfProgram s.pc)
  | some slot =>
    match decodeSlots s.params.hostEndian slot s.text[s.pc + 1]? with
    | .ok i =>
      if i.wellFormed s.params then .ok i
      else .error (illegal s.pc slot s.text[s.pc + 1]?)
    | .error .truncated => .error (.fetchOutOfProgram s.pc)
    | .error _ => .error (illegal s.pc slot s.text[s.pc + 1]?)
where
  /-- `IllegalInstruction` with the canonical word, and the second one for the wide opcode (60_exceptions.md R382). -/
  illegal (pc : Nat) (slot : Slot) (next : Option Slot) : Fault :=
    .illegalInstruction pc (slot.fields s.params.hostEndian).word
      (if slot.isWide then next.map fun n => (n.fields s.params.hostEndian).word else none)

/-- The text with a slot placed at an index; slots between its old end and the index are zero. -/
def placeSlot : List Slot → Nat → Slot → List Slot
  | [], 0, x => [x]
  | _ :: rest, 0, x => x :: rest
  | [], n + 1, x => Slot.zero :: placeSlot [] n x
  | y :: rest, n + 1, x => y :: placeSlot rest n x

/-- The state with two slots placed at the pc, and running. -/
def State.placeAtPc (s : State) (slots : Slot × Slot) : State :=
  { s with text := placeSlot (placeSlot s.text s.pc slots.1) (s.pc + 1) slots.2, status := .running }

end Sys2Proof.Machine
end

