-- ==== Sys2Proof/Machine/Step.lean ====
section
/-!
DEFINITION. One step of the machine: fetch, decode, execute (30_encoding.md R98), by a running machine only
(10_state.md R34).
-/
namespace Sys2Proof.Machine

/-- One step. A machine that is not running takes none (10_state.md R34): it answers how its run ended. -/
def step (s : State) : Host.Outcome State Fault Refusal :=
  match s.status with
  | .running =>
    match fetch s with
    | .ok i => tick (exec i s)
    | .error f => raise f
  | .exited r => refuse (.runEnded r)
  | .faulted f => raise f
  | .refused r => refuse r

/-- The state after one step, with the run status recorded (10_state.md R34): a fault or a refusal becomes the status
and changes nothing else (60_exceptions.md R381 (a)); a machine that is not running stays as it is. -/
def runStep (s : State) : State :=
  match s.status with
  | .running => s.settle (step s)
  | _ => s

/-- The state with the instruction of a table word placed where the next step fetches; it stands for the platform's
loader (70_reset_and_hazards.md R421 (a); log entry 2). -/
def State.withFetchWord (s : State) (nbits w : Nat) : State :=
  s.placeAtPc (tableSlots s.params.hostEndian nbits w)

end Sys2Proof.Machine
end

