-- ==== Sys2Proof/Machine/Launch.lean ====
section
/-!
DEFINITION. The launch of a run (70_reset_and_hazards.md R420): the checks on the parameters and the launch state.
-/
namespace Sys2Proof.Machine

/-- Is some access of kind write or atomic, of a size an instruction makes, admitted that touches the address? Reads are
not looked at, DESIGN CHOICE: 47_imm64.md R355 says that data accesses through a code address are not admitted, while
20_memory.md R66, which it cites, and 60_exceptions.md R391 (b) refuse a launch for writes and atomics alone; whether a
read is admitted is left to `MEM_ADMIT` (log entry 20; log entry 19 for the bytes that count). -/
def mayBeWritten (p : Params) (a : Word) : Bool :=
  [1, 2, 4, 8].any fun n => (List.range n).any fun k =>
    decide (k ≤ a.toNat)
      && (p.admits (a - BitVec.ofNat 64 k) n .write || p.admits (a - BitVec.ofNat 64 k) n .atomic)

/-- Does `MEM_ADMIT` admit a write to an address `CODE_ADDR` returns (20_memory.md R66)? -/
def codeWritable (p : Params) : Bool := p.codeAddr.any fun c => mayBeWritten p c.2

/-- Does every helper return to the next instruction (43_jump.md R223)? -/
def helpersReturn (p : Params) : Bool :=
  p.helpersStatic.all (fun h => h.2.returnsToNext) && p.helpersBtf.all fun h => h.2.returnsToNext

/-- Why a launch is refused, if it is (60_exceptions.md R391 (b), 70_reset_and_hazards.md R420 (1)). -/
def launchRefusal (text : List Slot) (p : Params) : Option Refusal :=
  if ConformanceGroup.base32 ∉ p.groups then some .launchWithoutBase32
  else if !legalTarget text p.entryPc then some .launchBadEntryPc
  else if codeWritable p then some .launchCodeWritable
  else if !helpersReturn p then some .launchHelperDoesNotReturn
  else none

/-- The launch of a run (70_reset_and_hazards.md R420): the launch values of 10_state.md R36, with the status
`Refused` if a check fails. -/
def launch (text : List Slot) (p : Params) (mem : Memory) : State where
  regs := p.entryRegs
  pc := p.entryPc
  mem := mem
  cs := []
  deepest := 0
  status :=
    match launchRefusal text p with
    | some r => .refused r
    | none => .running
  text := text
  params := p
  env := 0

end Sys2Proof.Machine
end

