-- ==== Sys2Proof/Safety.lean ====
section
/-!
DEFINITION. The terms the statements use: which registers an instruction reads and which access it makes, what it
means that a state differs from another only in what an instruction writes, runs of many steps, and the invariants.
-/
namespace Sys2Proof.Machine

/-! ### What an instruction touches -/

/-- The registers an instruction reads, in the order it reads them (10_state.md R23, 60_exceptions.md R392). Calls of
helpers and EXIT read registers by their own rules (43_jump.md R223, R251). -/
def readsOf : Instr → List Reg
  | .addKAlu dst _ => [dst]
  | .addXAlu dst src => [dst, src]
  | .subKAlu dst _ => [dst]
  | .subXAlu dst src => [dst, src]
  | .mulKAlu dst _ => [dst]
  | .mulXAlu dst src => [dst, src]
  | .divKAlu dst _ => [dst]
  | .divXAlu dst src => [dst, src]
  | .sdivKAlu dst _ => [dst]
  | .sdivXAlu dst src => [dst, src]
  | .orKAlu dst _ => [dst]
  | .orXAlu dst src => [dst, src]
  | .andKAlu dst _ => [dst]
  | .andXAlu dst src => [dst, src]
  | .lshKAlu dst _ => [dst]
  | .lshXAlu dst src => [dst, src]
  | .rshKAlu dst _ => [dst]
  | .rshXAlu dst src => [dst, src]
  | .negKAlu dst => [dst]
  | .modKAlu dst _ => [dst]
  | .modXAlu dst src => [dst, src]
  | .smodKAlu dst _ => [dst]
  | .smodXAlu dst src => [dst, src]
  | .xorKAlu dst _ => [dst]
  | .xorXAlu dst src => [dst, src]
  | .movKAlu _ _ => []
  | .movXAlu _ src => [src]
  | .movsx8XAlu _ src => [src]
  | .movsx16XAlu _ src => [src]
  | .arshKAlu dst _ => [dst]
  | .arshXAlu dst src => [dst, src]
  | .addKAlu64 dst _ => [dst]
  | .addXAlu64 dst src => [dst, src]
  | .subKAlu64 dst _ => [dst]
  | .subXAlu64 dst src => [dst, src]
  | .mulKAlu64 dst _ => [dst]
  | .mulXAlu64 dst src => [dst, src]
  | .divKAlu64 dst _ => [dst]
  | .divXAlu64 dst src => [dst, src]
  | .sdivKAlu64 dst _ => [dst]
  | .sdivXAlu64 dst src => [dst, src]
  | .orKAlu64 dst _ => [dst]
  | .orXAlu64 dst src => [dst, src]
  | .andKAlu64 dst _ => [dst]
  | .andXAlu64 dst src => [dst, src]
  | .lshKAlu64 dst _ => [dst]
  | .lshXAlu64 dst src => [dst, src]
  | .rshKAlu64 dst _ => [dst]
  | .rshXAlu64 dst src => [dst, src]
  | .negKAlu64 dst => [dst]
  | .modKAlu64 dst _ => [dst]
  | .modXAlu64 dst src => [dst, src]
  | .smodKAlu64 dst _ => [dst]
  | .smodXAlu64 dst src => [dst, src]
  | .xorKAlu64 dst _ => [dst]
  | .xorXAlu64 dst src => [dst, src]
  | .movKAlu64 _ _ => []
  | .movXAlu64 _ src => [src]
  | .movsx8XAlu64 _ src => [src]
  | .movsx16XAlu64 _ src => [src]
  | .movsx32XAlu64 _ src => [src]
  | .arshKAlu64 dst _ => [dst]
  | .arshXAlu64 dst src => [dst, src]
  | .endToLeAlu16 dst => [dst]
  | .endToLeAlu32 dst => [dst]
  | .endToLeAlu64 dst => [dst]
  | .endToBeAlu16 dst => [dst]
  | .endToBeAlu32 dst => [dst]
  | .endToBeAlu64 dst => [dst]
  | .endAlu64Swap16 dst => [dst]
  | .endAlu64Swap32 dst => [dst]
  | .endAlu64Swap64 dst => [dst]
  | .jaKJmp _ => []
  | .jeqKJmp dst _ _ => [dst]
  | .jeqXJmp dst src _ => [dst, src]
  | .jgtKJmp dst _ _ => [dst]
  | .jgtXJmp dst src _ => [dst, src]
  | .jgeKJmp dst _ _ => [dst]
  | .jgeXJmp dst src _ => [dst, src]
  | .jsetKJmp dst _ _ => [dst]
  | .jsetXJmp dst src _ => [dst, src]
  | .jneKJmp dst _ _ => [dst]
  | .jneXJmp dst src _ => [dst, src]
  | .jsgtKJmp dst _ _ => [dst]
  | .jsgtXJmp dst src _ => [dst, src]
  | .jsgeKJmp dst _ _ => [dst]
  | .jsgeXJmp dst src _ => [dst, src]
  | .jltKJmp dst _ _ => [dst]
  | .jltXJmp dst src _ => [dst, src]
  | .jleKJmp dst _ _ => [dst]
  | .jleXJmp dst src _ => [dst, src]
  | .jsltKJmp dst _ _ => [dst]
  | .jsltXJmp dst src _ => [dst, src]
  | .jsleKJmp dst _ _ => [dst]
  | .jsleXJmp dst src _ => [dst, src]
  | .callHelperKJmp _ => []
  | .callLocalKJmp _ => []
  | .callBtfKJmp _ => []
  | .exitKJmp => []
  | .jaKJmp32 _ => []
  | .jeqKJmp32 dst _ _ => [dst]
  | .jeqXJmp32 dst src _ => [dst, src]
  | .jgtKJmp32 dst _ _ => [dst]
  | .jgtXJmp32 dst src _ => [dst, src]
  | .jgeKJmp32 dst _ _ => [dst]
  | .jgeXJmp32 dst src _ => [dst, src]
  | .jsetKJmp32 dst _ _ => [dst]
  | .jsetXJmp32 dst src _ => [dst, src]
  | .jneKJmp32 dst _ _ => [dst]
  | .jneXJmp32 dst src _ => [dst, src]
  | .jsgtKJmp32 dst _ _ => [dst]
  | .jsgtXJmp32 dst src _ => [dst, src]
  | .jsgeKJmp32 dst _ _ => [dst]
  | .jsgeXJmp32 dst src _ => [dst, src]
  | .jltKJmp32 dst _ _ => [dst]
  | .jltXJmp32 dst src _ => [dst, src]
  | .jleKJmp32 dst _ _ => [dst]
  | .jleXJmp32 dst src _ => [dst, src]
  | .jsltKJmp32 dst _ _ => [dst]
  | .jsltXJmp32 dst src _ => [dst, src]
  | .jsleKJmp32 dst _ _ => [dst]
  | .jsleXJmp32 dst src _ => [dst, src]
  | .memWLdx _ src _ => [src]
  | .memHLdx _ src _ => [src]
  | .memBLdx _ src _ => [src]
  | .memDwLdx _ src _ => [src]
  | .memWSt dst _ _ => [dst]
  | .memHSt dst _ _ => [dst]
  | .memBSt dst _ _ => [dst]
  | .memDwSt dst _ _ => [dst]
  | .memWStx dst src _ => [dst, src]
  | .memHStx dst src _ => [dst, src]
  | .memBStx dst src _ => [dst, src]
  | .memDwStx dst src _ => [dst, src]
  | .memsxWLdx _ src _ => [src]
  | .memsxHLdx _ src _ => [src]
  | .memsxBLdx _ src _ => [src]
  | .atomicWStxAdd dst src _ => [dst, src]
  | .atomicDwStxAdd dst src _ => [dst, src]
  | .atomicWStxAddFetch dst src _ => [dst, src]
  | .atomicDwStxAddFetch dst src _ => [dst, src]
  | .atomicWStxOr dst src _ => [dst, src]
  | .atomicDwStxOr dst src _ => [dst, src]
  | .atomicWStxOrFetch dst src _ => [dst, src]
  | .atomicDwStxOrFetch dst src _ => [dst, src]
  | .atomicWStxAnd dst src _ => [dst, src]
  | .atomicDwStxAnd dst src _ => [dst, src]
  | .atomicWStxAndFetch dst src _ => [dst, src]
  | .atomicDwStxAndFetch dst src _ => [dst, src]
  | .atomicWStxXor dst src _ => [dst, src]
  | .atomicDwStxXor dst src _ => [dst, src]
  | .atomicWStxXorFetch dst src _ => [dst, src]
  | .atomicDwStxXorFetch dst src _ => [dst, src]
  | .atomicWStxXchg dst src _ => [dst, src]
  | .atomicDwStxXchg dst src _ => [dst, src]
  | .atomicWStxCmpxchg dst src _ => [dst, src, .r0]
  | .atomicDwStxCmpxchg dst src _ => [dst, src, .r0]
  | .immDwLd0 _ _ _ => []
  | .immDwLd1 _ _ => []
  | .immDwLd2 _ _ _ => []
  | .immDwLd3 _ _ => []
  | .immDwLd4 _ _ => []
  | .immDwLd5 _ _ => []
  | .immDwLd6 _ _ _ => []
  | .absWLd _ => []
  | .absHLd _ => []
  | .absBLd _ => []
  | .indWLd _ _ => []
  | .indHLd _ _ => []
  | .indBLd _ _ => []

/-- One request to data memory: base register, displacement, size and kind. -/
structure MemRequest where
  base : Reg
  offset : BitVec 16
  size : Size
  kind : AccessKind
deriving DecidableEq, Repr

/-- The memory access an instruction makes, if it is a load, a store or an atomic (20_memory.md R55). -/
def requestOf : Instr → Option MemRequest
  | .addKAlu _ _ => none
  | .addXAlu _ _ => none
  | .subKAlu _ _ => none
  | .subXAlu _ _ => none
  | .mulKAlu _ _ => none
  | .mulXAlu _ _ => none
  | .divKAlu _ _ => none
  | .divXAlu _ _ => none
  | .sdivKAlu _ _ => none
  | .sdivXAlu _ _ => none
  | .orKAlu _ _ => none
  | .orXAlu _ _ => none
  | .andKAlu _ _ => none
  | .andXAlu _ _ => none
  | .lshKAlu _ _ => none
  | .lshXAlu _ _ => none
  | .rshKAlu _ _ => none
  | .rshXAlu _ _ => none
  | .negKAlu _ => none
  | .modKAlu _ _ => none
  | .modXAlu _ _ => none
  | .smodKAlu _ _ => none
  | .smodXAlu _ _ => none
  | .xorKAlu _ _ => none
  | .xorXAlu _ _ => none
  | .movKAlu _ _ => none
  | .movXAlu _ _ => none
  | .movsx8XAlu _ _ => none
  | .movsx16XAlu _ _ => none
  | .arshKAlu _ _ => none
  | .arshXAlu _ _ => none
  | .addKAlu64 _ _ => none
  | .addXAlu64 _ _ => none
  | .subKAlu64 _ _ => none
  | .subXAlu64 _ _ => none
  | .mulKAlu64 _ _ => none
  | .mulXAlu64 _ _ => none
  | .divKAlu64 _ _ => none
  | .divXAlu64 _ _ => none
  | .sdivKAlu64 _ _ => none
  | .sdivXAlu64 _ _ => none
  | .orKAlu64 _ _ => none
  | .orXAlu64 _ _ => none
  | .andKAlu64 _ _ => none
  | .andXAlu64 _ _ => none
  | .lshKAlu64 _ _ => none
  | .lshXAlu64 _ _ => none
  | .rshKAlu64 _ _ => none
  | .rshXAlu64 _ _ => none
  | .negKAlu64 _ => none
  | .modKAlu64 _ _ => none
  | .modXAlu64 _ _ => none
  | .smodKAlu64 _ _ => none
  | .smodXAlu64 _ _ => none
  | .xorKAlu64 _ _ => none
  | .xorXAlu64 _ _ => none
  | .movKAlu64 _ _ => none
  | .movXAlu64 _ _ => none
  | .movsx8XAlu64 _ _ => none
  | .movsx16XAlu64 _ _ => none
  | .movsx32XAlu64 _ _ => none
  | .arshKAlu64 _ _ => none
  | .arshXAlu64 _ _ => none
  | .endToLeAlu16 _ => none
  | .endToLeAlu32 _ => none
  | .endToLeAlu64 _ => none
  | .endToBeAlu16 _ => none
  | .endToBeAlu32 _ => none
  | .endToBeAlu64 _ => none
  | .endAlu64Swap16 _ => none
  | .endAlu64Swap32 _ => none
  | .endAlu64Swap64 _ => none
  | .jaKJmp _ => none
  | .jeqKJmp _ _ _ => none
  | .jeqXJmp _ _ _ => none
  | .jgtKJmp _ _ _ => none
  | .jgtXJmp _ _ _ => none
  | .jgeKJmp _ _ _ => none
  | .jgeXJmp _ _ _ => none
  | .jsetKJmp _ _ _ => none
  | .jsetXJmp _ _ _ => none
  | .jneKJmp _ _ _ => none
  | .jneXJmp _ _ _ => none
  | .jsgtKJmp _ _ _ => none
  | .jsgtXJmp _ _ _ => none
  | .jsgeKJmp _ _ _ => none
  | .jsgeXJmp _ _ _ => none
  | .jltKJmp _ _ _ => none
  | .jltXJmp _ _ _ => none
  | .jleKJmp _ _ _ => none
  | .jleXJmp _ _ _ => none
  | .jsltKJmp _ _ _ => none
  | .jsltXJmp _ _ _ => none
  | .jsleKJmp _ _ _ => none
  | .jsleXJmp _ _ _ => none
  | .callHelperKJmp _ => none
  | .callLocalKJmp _ => none
  | .callBtfKJmp _ => none
  | .exitKJmp => none
  | .jaKJmp32 _ => none
  | .jeqKJmp32 _ _ _ => none
  | .jeqXJmp32 _ _ _ => none
  | .jgtKJmp32 _ _ _ => none
  | .jgtXJmp32 _ _ _ => none
  | .jgeKJmp32 _ _ _ => none
  | .jgeXJmp32 _ _ _ => none
  | .jsetKJmp32 _ _ _ => none
  | .jsetXJmp32 _ _ _ => none
  | .jneKJmp32 _ _ _ => none
  | .jneXJmp32 _ _ _ => none
  | .jsgtKJmp32 _ _ _ => none
  | .jsgtXJmp32 _ _ _ => none
  | .jsgeKJmp32 _ _ _ => none
  | .jsgeXJmp32 _ _ _ => none
  | .jltKJmp32 _ _ _ => none
  | .jltXJmp32 _ _ _ => none
  | .jleKJmp32 _ _ _ => none
  | .jleXJmp32 _ _ _ => none
  | .jsltKJmp32 _ _ _ => none
  | .jsltXJmp32 _ _ _ => none
  | .jsleKJmp32 _ _ _ => none
  | .jsleXJmp32 _ _ _ => none
  | .memWLdx _ src offset => some ⟨src, offset, .w, .read⟩
  | .memHLdx _ src offset => some ⟨src, offset, .h, .read⟩
  | .memBLdx _ src offset => some ⟨src, offset, .b, .read⟩
  | .memDwLdx _ src offset => some ⟨src, offset, .dw, .read⟩
  | .memWSt dst offset _ => some ⟨dst, offset, .w, .write⟩
  | .memHSt dst offset _ => some ⟨dst, offset, .h, .write⟩
  | .memBSt dst offset _ => some ⟨dst, offset, .b, .write⟩
  | .memDwSt dst offset _ => some ⟨dst, offset, .dw, .write⟩
  | .memWStx dst _ offset => some ⟨dst, offset, .w, .write⟩
  | .memHStx dst _ offset => some ⟨dst, offset, .h, .write⟩
  | .memBStx dst _ offset => some ⟨dst, offset, .b, .write⟩
  | .memDwStx dst _ offset => some ⟨dst, offset, .dw, .write⟩
  | .memsxWLdx _ src offset => some ⟨src, offset, .w, .read⟩
  | .memsxHLdx _ src offset => some ⟨src, offset, .h, .read⟩
  | .memsxBLdx _ src offset => some ⟨src, offset, .b, .read⟩
  | .atomicWStxAdd dst _ offset => some ⟨dst, offset, .w, .atomic⟩
  | .atomicDwStxAdd dst _ offset => some ⟨dst, offset, .dw, .atomic⟩
  | .atomicWStxAddFetch dst _ offset => some ⟨dst, offset, .w, .atomic⟩
  | .atomicDwStxAddFetch dst _ offset => some ⟨dst, offset, .dw, .atomic⟩
  | .atomicWStxOr dst _ offset => some ⟨dst, offset, .w, .atomic⟩
  | .atomicDwStxOr dst _ offset => some ⟨dst, offset, .dw, .atomic⟩
  | .atomicWStxOrFetch dst _ offset => some ⟨dst, offset, .w, .atomic⟩
  | .atomicDwStxOrFetch dst _ offset => some ⟨dst, offset, .dw, .atomic⟩
  | .atomicWStxAnd dst _ offset => some ⟨dst, offset, .w, .atomic⟩
  | .atomicDwStxAnd dst _ offset => some ⟨dst, offset, .dw, .atomic⟩
  | .atomicWStxAndFetch dst _ offset => some ⟨dst, offset, .w, .atomic⟩
  | .atomicDwStxAndFetch dst _ offset => some ⟨dst, offset, .dw, .atomic⟩
  | .atomicWStxXor dst _ offset => some ⟨dst, offset, .w, .atomic⟩
  | .atomicDwStxXor dst _ offset => some ⟨dst, offset, .dw, .atomic⟩
  | .atomicWStxXorFetch dst _ offset => some ⟨dst, offset, .w, .atomic⟩
  | .atomicDwStxXorFetch dst _ offset => some ⟨dst, offset, .dw, .atomic⟩
  | .atomicWStxXchg dst _ offset => some ⟨dst, offset, .w, .atomic⟩
  | .atomicDwStxXchg dst _ offset => some ⟨dst, offset, .dw, .atomic⟩
  | .atomicWStxCmpxchg dst _ offset => some ⟨dst, offset, .w, .atomic⟩
  | .atomicDwStxCmpxchg dst _ offset => some ⟨dst, offset, .dw, .atomic⟩
  | .immDwLd0 _ _ _ => none
  | .immDwLd1 _ _ => none
  | .immDwLd2 _ _ _ => none
  | .immDwLd3 _ _ => none
  | .immDwLd4 _ _ => none
  | .immDwLd5 _ _ => none
  | .immDwLd6 _ _ _ => none
  | .absWLd _ => none
  | .absHLd _ => none
  | .absBLd _ => none
  | .indWLd _ _ => none
  | .indHLd _ _ => none
  | .indBLd _ _ => none

/-- Is the instruction a jump, a program-local call or EXIT: one that may set the pc other than by going on to the next
instruction (10_state.md R24)? -/
def setsPc : Instr → Bool
  | .addKAlu _ _ => false
  | .addXAlu _ _ => false
  | .subKAlu _ _ => false
  | .subXAlu _ _ => false
  | .mulKAlu _ _ => false
  | .mulXAlu _ _ => false
  | .divKAlu _ _ => false
  | .divXAlu _ _ => false
  | .sdivKAlu _ _ => false
  | .sdivXAlu _ _ => false
  | .orKAlu _ _ => false
  | .orXAlu _ _ => false
  | .andKAlu _ _ => false
  | .andXAlu _ _ => false
  | .lshKAlu _ _ => false
  | .lshXAlu _ _ => false
  | .rshKAlu _ _ => false
  | .rshXAlu _ _ => false
  | .negKAlu _ => false
  | .modKAlu _ _ => false
  | .modXAlu _ _ => false
  | .smodKAlu _ _ => false
  | .smodXAlu _ _ => false
  | .xorKAlu _ _ => false
  | .xorXAlu _ _ => false
  | .movKAlu _ _ => false
  | .movXAlu _ _ => false
  | .movsx8XAlu _ _ => false
  | .movsx16XAlu _ _ => false
  | .arshKAlu _ _ => false
  | .arshXAlu _ _ => false
  | .addKAlu64 _ _ => false
  | .addXAlu64 _ _ => false
  | .subKAlu64 _ _ => false
  | .subXAlu64 _ _ => false
  | .mulKAlu64 _ _ => false
  | .mulXAlu64 _ _ => false
  | .divKAlu64 _ _ => false
  | .divXAlu64 _ _ => false
  | .sdivKAlu64 _ _ => false
  | .sdivXAlu64 _ _ => false
  | .orKAlu64 _ _ => false
  | .orXAlu64 _ _ => false
  | .andKAlu64 _ _ => false
  | .andXAlu64 _ _ => false
  | .lshKAlu64 _ _ => false
  | .lshXAlu64 _ _ => false
  | .rshKAlu64 _ _ => false
  | .rshXAlu64 _ _ => false
  | .negKAlu64 _ => false
  | .modKAlu64 _ _ => false
  | .modXAlu64 _ _ => false
  | .smodKAlu64 _ _ => false
  | .smodXAlu64 _ _ => false
  | .xorKAlu64 _ _ => false
  | .xorXAlu64 _ _ => false
  | .movKAlu64 _ _ => false
  | .movXAlu64 _ _ => false
  | .movsx8XAlu64 _ _ => false
  | .movsx16XAlu64 _ _ => false
  | .movsx32XAlu64 _ _ => false
  | .arshKAlu64 _ _ => false
  | .arshXAlu64 _ _ => false
  | .endToLeAlu16 _ => false
  | .endToLeAlu32 _ => false
  | .endToLeAlu64 _ => false
  | .endToBeAlu16 _ => false
  | .endToBeAlu32 _ => false
  | .endToBeAlu64 _ => false
  | .endAlu64Swap16 _ => false
  | .endAlu64Swap32 _ => false
  | .endAlu64Swap64 _ => false
  | .jaKJmp _ => true
  | .jeqKJmp _ _ _ => true
  | .jeqXJmp _ _ _ => true
  | .jgtKJmp _ _ _ => true
  | .jgtXJmp _ _ _ => true
  | .jgeKJmp _ _ _ => true
  | .jgeXJmp _ _ _ => true
  | .jsetKJmp _ _ _ => true
  | .jsetXJmp _ _ _ => true
  | .jneKJmp _ _ _ => true
  | .jneXJmp _ _ _ => true
  | .jsgtKJmp _ _ _ => true
  | .jsgtXJmp _ _ _ => true
  | .jsgeKJmp _ _ _ => true
  | .jsgeXJmp _ _ _ => true
  | .jltKJmp _ _ _ => true
  | .jltXJmp _ _ _ => true
  | .jleKJmp _ _ _ => true
  | .jleXJmp _ _ _ => true
  | .jsltKJmp _ _ _ => true
  | .jsltXJmp _ _ _ => true
  | .jsleKJmp _ _ _ => true
  | .jsleXJmp _ _ _ => true
  | .callHelperKJmp _ => false
  | .callLocalKJmp _ => true
  | .callBtfKJmp _ => false
  | .exitKJmp => true
  | .jaKJmp32 _ => true
  | .jeqKJmp32 _ _ _ => true
  | .jeqXJmp32 _ _ _ => true
  | .jgtKJmp32 _ _ _ => true
  | .jgtXJmp32 _ _ _ => true
  | .jgeKJmp32 _ _ _ => true
  | .jgeXJmp32 _ _ _ => true
  | .jsetKJmp32 _ _ _ => true
  | .jsetXJmp32 _ _ _ => true
  | .jneKJmp32 _ _ _ => true
  | .jneXJmp32 _ _ _ => true
  | .jsgtKJmp32 _ _ _ => true
  | .jsgtXJmp32 _ _ _ => true
  | .jsgeKJmp32 _ _ _ => true
  | .jsgeXJmp32 _ _ _ => true
  | .jltKJmp32 _ _ _ => true
  | .jltXJmp32 _ _ _ => true
  | .jleKJmp32 _ _ _ => true
  | .jleXJmp32 _ _ _ => true
  | .jsltKJmp32 _ _ _ => true
  | .jsltXJmp32 _ _ _ => true
  | .jsleKJmp32 _ _ _ => true
  | .jsleXJmp32 _ _ _ => true
  | .memWLdx _ _ _ => false
  | .memHLdx _ _ _ => false
  | .memBLdx _ _ _ => false
  | .memDwLdx _ _ _ => false
  | .memWSt _ _ _ => false
  | .memHSt _ _ _ => false
  | .memBSt _ _ _ => false
  | .memDwSt _ _ _ => false
  | .memWStx _ _ _ => false
  | .memHStx _ _ _ => false
  | .memBStx _ _ _ => false
  | .memDwStx _ _ _ => false
  | .memsxWLdx _ _ _ => false
  | .memsxHLdx _ _ _ => false
  | .memsxBLdx _ _ _ => false
  | .atomicWStxAdd _ _ _ => false
  | .atomicDwStxAdd _ _ _ => false
  | .atomicWStxAddFetch _ _ _ => false
  | .atomicDwStxAddFetch _ _ _ => false
  | .atomicWStxOr _ _ _ => false
  | .atomicDwStxOr _ _ _ => false
  | .atomicWStxOrFetch _ _ _ => false
  | .atomicDwStxOrFetch _ _ _ => false
  | .atomicWStxAnd _ _ _ => false
  | .atomicDwStxAnd _ _ _ => false
  | .atomicWStxAndFetch _ _ _ => false
  | .atomicDwStxAndFetch _ _ _ => false
  | .atomicWStxXor _ _ _ => false
  | .atomicDwStxXor _ _ _ => false
  | .atomicWStxXorFetch _ _ _ => false
  | .atomicDwStxXorFetch _ _ _ => false
  | .atomicWStxXchg _ _ _ => false
  | .atomicDwStxXchg _ _ _ => false
  | .atomicWStxCmpxchg _ _ _ => false
  | .atomicDwStxCmpxchg _ _ _ => false
  | .immDwLd0 _ _ _ => false
  | .immDwLd1 _ _ => false
  | .immDwLd2 _ _ _ => false
  | .immDwLd3 _ _ => false
  | .immDwLd4 _ _ => false
  | .immDwLd5 _ _ => false
  | .immDwLd6 _ _ _ => false
  | .absWLd _ => false
  | .absHLd _ => false
  | .absBLd _ => false
  | .indWLd _ _ => false
  | .indHLd _ _ => false
  | .indBLd _ _ => false

/-! ### What an instruction changes and what it leaves -/

/-- Nothing but registers, the pc and memory differs. -/
structure SameRest (s t : State) : Prop where
  cs : t.cs = s.cs
  deepest : t.deepest = s.deepest
  status : t.status = s.status
  text : t.text = s.text
  params : t.params = s.params
  env : t.env = s.env

/-- Every byte of memory is the same, as stored and as read. -/
structure SameMemory (s t : State) : Prop where
  stored : ∀ a : Nat, Memory.find t.mem a = Memory.find s.mem a
  read : ∀ a : Word, t.byteAt a = s.byteAt a

/-- `t` is `s` after an instruction of `n` slots that writes `v` to register `r` and nothing else. -/
structure WroteReg (s t : State) (r : Reg) (v : Word) (n : Nat) : Prop where
  value : t.reg r = .holds v
  others : ∀ q : Reg, q ≠ r → t.reg q = s.reg q
  pc : t.pc = s.pc + n
  memory : SameMemory s t
  rest : SameRest s t

/-- The instruction completes: it writes `v` to register `r`, goes on to the next instruction and changes nothing
else. -/
def Completes (i : Instr) (s : State) (r : Reg) (v : Word) : Prop :=
  ∃ t, exec i s = .next t ∧ WroteReg s t r v i.length

/-- `t` is `s` with the pc at slot `pc` and nothing else changed. -/
structure MovedTo (s t : State) (pc : Nat) : Prop where
  pc : t.pc = pc
  regs : ∀ q : Reg, t.reg q = s.reg q
  memory : SameMemory s t
  rest : SameRest s t

/-- The instruction is a jump by `d` slots (43_jump.md R220): it completes at a legal instruction start, and raises
`BadJumpTarget` at any other target. -/
def Jumps (i : Instr) (s : State) (d : Int) : Prop :=
  (legalTarget s.text (s.pc + 1 + d) = true →
    ∃ t, exec i s = .next t ∧ MovedTo s t (s.pc + 1 + d).toNat) ∧
  (legalTarget s.text (s.pc + 1 + d) = false →
    exec i s = .fault (.badJumpTarget s.pc (s.pc + 1 + d)))

/-- The instruction jumps by `d` slots if `c` holds, and goes on to the next instruction if it does not, whatever the
target. -/
def Branches (i : Instr) (s : State) (c : Prop) (d : Int) : Prop :=
  (c → Jumps i s d) ∧ (¬c → ∃ t, exec i s = .next t ∧ MovedTo s t (s.pc + 1))

/-- Memory of `t` is that of `s` with the bytes `bs` stored from address `a` on; every other byte is the same. -/
structure StoredAt (s t : State) (a : Word) (bs : List Byte) : Prop where
  stored : ∀ (k : Nat) (h : k < bs.length), Memory.find t.mem (a + BitVec.ofNat 64 k).toNat = some bs[k]
  read : ∀ (k : Nat) (h : k < bs.length), s.params.isPrivate (a + BitVec.ofNat 64 k) = true →
    t.byteAt (a + BitVec.ofNat 64 k) = bs[k]
  othersStored : ∀ b : Word, (∀ k < bs.length, b ≠ a + BitVec.ofNat 64 k) →
    Memory.find t.mem b.toNat = Memory.find s.mem b.toNat
  othersRead : ∀ b : Word, (∀ k < bs.length, b ≠ a + BitVec.ofNat 64 k) → t.byteAt b = s.byteAt b

/-- Memory of `t` is that of `s` with the frame of a called function used again (43_jump.md R251): the
`STACK_SIZE` bytes below the frame pointer `fp` hold free values, and every other byte is the same. -/
structure FreshFrame (s t : State) (fp : Word) : Prop where
  stored : ∀ k < s.params.stackSize, Memory.find t.mem (fp - BitVec.ofNat 64 (k + 1)).toNat =
    some (Config.frameByte s.env (fp - BitVec.ofNat 64 (k + 1)))
  read : ∀ k < s.params.stackSize, s.params.isPrivate (fp - BitVec.ofNat 64 (k + 1)) = true →
    t.byteAt (fp - BitVec.ofNat 64 (k + 1)) = Config.frameByte s.env (fp - BitVec.ofNat 64 (k + 1))
  othersStored : ∀ a : Word, (∀ k < s.params.stackSize, a ≠ fp - BitVec.ofNat 64 (k + 1)) →
    Memory.find t.mem a.toNat = Memory.find s.mem a.toNat
  othersRead : ∀ a : Word, (∀ k < s.params.stackSize, a ≠ fp - BitVec.ofNat 64 (k + 1)) → t.byteAt a = s.byteAt a

/-- The bytes of a number in memory order: byte `k` of little-endian memory is bits `8k+7` to `8k`, of big-endian memory
bits `8(n-1-k)+7` to `8(n-1-k)` (20_memory.md R53). -/
def memoryBytes (e : Endian) (n : Nat) (v : Word) : List Byte :=
  (List.range n).map fun k =>
    match e with
    | .little => v.extractLsb' (8 * k) 8
    | .big => v.extractLsb' (8 * (n - 1 - k)) 8

/-- The store completes: the low bytes of `v` stored at `a` in data byte order, no register changed, the pc advanced. -/
def Stores (i : Instr) (s : State) (a : Word) (z : Size) (v : Word) : Prop :=
  ∃ t, exec i s = .next t ∧ StoredAt s t a (memoryBytes s.params.hostEndian z.bytes v) ∧
    (∀ q : Reg, t.reg q = s.reg q) ∧ t.pc = s.pc + 1 ∧ SameRest s t

/-- The atomic completes: `new` stored at `a`, register `r` given `old` and no other changed, the pc advanced. -/
def Exchanges (i : Instr) (s : State) (a : Word) (z : Size) (new : Word) (r : Reg) (old : Word) : Prop :=
  ∃ t, exec i s = .next t ∧ StoredAt s t a (memoryBytes s.params.hostEndian z.bytes new) ∧
    t.reg r = .holds old ∧ (∀ q : Reg, q ≠ r → t.reg q = s.reg q) ∧ t.pc = s.pc + 1 ∧ SameRest s t

/-- `v` is the number the `n` bytes at `a` spell in data byte order, zero-extended (20_memory.md R53). -/
structure SpelledAt (s : State) (a : Word) (n : Nat) (v : Word) : Prop where
  little : s.params.hostEndian = .little →
    ∀ k < n, v.extractLsb' (8 * k) 8 = s.byteAt (a + BitVec.ofNat 64 k)
  big : s.params.hostEndian = .big →
    ∀ k < n, v.extractLsb' (8 * (n - 1 - k)) 8 = s.byteAt (a + BitVec.ofNat 64 k)
  bound : v.toNat < 2 ^ (8 * n)

/-- `v` is the low `n` bytes of `x` in the opposite order, zero-extended (00_scope.md R11). -/
structure Reversed (n : Nat) (x v : Word) : Prop where
  bytes : ∀ k < n, v.extractLsb' (8 * k) 8 = x.extractLsb' (8 * (n - 1 - k)) 8
  bound : v.toNat < 2 ^ (8 * n)

/-! ### Runs -/

/-- The state after `n` steps, the run status recorded. -/
def runFor : Nat → State → State
  | 0, s => s
  | n + 1, s => runFor n (runStep s)

/-- The run from `s` never ends in a fault (60_exceptions.md R381 (d)). -/
def NeverFaults (s : State) : Prop := ∀ n f, (runFor n s).status ≠ .faulted f

/-! ### Invariants -/

/-- A slot index at which an instruction starts, or the end of the text. -/
def onBoundary (text : List Slot) (n : Nat) : Bool := startsAt false text n || decide (n = text.length)

/-- What holds at reset and after every step: memory in canonical form, a call stack within its bound, never deeper than the
depth on record, whose frames fit the frame policy, the pc and every return position between instructions. -/
structure Inv (s : State) : Prop where
  memory : Memory.wf s.mem = true
  depth : s.cs.length ≤ s.params.maxCallDepth
  deepest : s.cs.length ≤ s.deepest
  frames : ∀ f ∈ s.cs, f.saved.isSome = decide (s.params.framePolicy = .freshFrame)
  pc : onBoundary s.text s.pc = true
  returns : ∀ f ∈ s.cs, onBoundary s.text f.ret = true

/-- The frame pointer at a depth of the call stack: R10's launch value in the entry frame, `CALLEE_FP` in the others
(43_jump.md R224). -/
def framePointer (p : Params) (d : Nat) : RegVal :=
  match d with
  | 0 => p.entryRegs.r10
  | d + 1 => p.calleeFpAt (d + 1)

/-- Every frame has saved the frame pointer of the depth it returns to. -/
def savedPointers (p : Params) : List Frame → Prop
  | [] => True
  | f :: rest =>
    (∃ sv, f.saved = some sv ∧ sv.fp = framePointer p rest.length) ∧ savedPointers p rest

/-- R10 is the frame pointer of the current depth, and so it was in every frame (`R10_READONLY` with
`FRAME_POLICY = fresh_frame`: 10_state.md R21, 43_jump.md R224). -/
structure FrameInv (s : State) : Prop where
  readonly : s.params.r10Readonly = true
  policy : s.params.framePolicy = .freshFrame
  r10 : s.reg .r10 = framePointer s.params s.cs.length
  saved : savedPointers s.params s.cs

end Sys2Proof.Machine
end

