-- ==== Sys2Proof/Certificates/Slice0/Obligations.lean ====
section
/-!
DEFINITION. The statements for the provers. Each says what its title in OBLIGATIONS.json says; the docstring names the
rules of spec/ it formalises.
-/

section

open Sys2Proof Sys2Proof.Machine

/-- Decoding the slots of any instruction, on either host, gives the instruction back (30_encoding.md R81, 30_encoding.md R82, 30_encoding.md R83, 30_encoding.md R85, 30_encoding.md R98). -/
def Obligations.DecodeEncodeSlots : Prop :=
  ∀ (e : Endian) (i : Instr) (next : Option Slot),
    decodeSlots e (encodeSlots e i).1 ((encodeSlots e i).2.or next) = .ok i

/-- Each word has at most one meaning: what the decoder accepts is exactly an encoding (30_encoding.md R88, 30_encoding.md R90, 30_encoding.md R96, 30_encoding.md R98). Rests on the spec's own decisions or the model's: 92_eei_decisions.md D6, D7, D8. -/
def Obligations.DecodedFieldsAreEncoded : Prop :=
  ∀ (a : Fields) (second : Option Fields) (i : Instr), decode a second = .ok i →
    i.fields = a ∧ ∀ b, i.secondFields = some b → second = some b

/-- The worked example of the source: r1 += 0x11223344 on either host (R84). -/
def Obligations.WorkedExampleBothHosts : Prop :=
  ∀ next : Option Slot,
    (Slot.fields .little ⟨0x07, 0x01, 0x00, 0x00, 0x44, 0x33, 0x22, 0x11⟩ = ⟨0x07, 1, 0, 0, 0x11223344⟩) ∧
    (Slot.fields .big ⟨0x07, 0x10, 0x00, 0x00, 0x11, 0x22, 0x33, 0x44⟩ = ⟨0x07, 1, 0, 0, 0x11223344⟩) ∧
    (Fields.word ⟨0x07, 1, 0, 0, 0x11223344⟩ = 0x1122334400000107#64) ∧
    (decodeSlots .little ⟨0x07, 0x01, 0x00, 0x00, 0x44, 0x33, 0x22, 0x11⟩ next = .ok (.addKAlu64 .r1 0x11223344)) ∧
    (decodeSlots .big ⟨0x07, 0x10, 0x00, 0x00, 0x11, 0x22, 0x33, 0x44⟩ next = .ok (.addKAlu64 .r1 0x11223344))

/-- Where each field of a slot lies on a little-endian and on a big-endian host (R82, R83). -/
def Obligations.SlotFieldLayout : Prop :=
  ∀ x : Slot,
    ((x.fields .little).opcode = x.b0 ∧
      x.b1.toNat = (x.fields .little).src.toNat * 16 + (x.fields .little).dst.toNat ∧
      (x.fields .little).offset.toNat = x.b2.toNat + x.b3.toNat * 2 ^ 8 ∧
      (x.fields .little).imm.toNat = x.b4.toNat + x.b5.toNat * 2 ^ 8 + x.b6.toNat * 2 ^ 16 + x.b7.toNat * 2 ^ 24) ∧
    ((x.fields .big).opcode = x.b0 ∧
      x.b1.toNat = (x.fields .big).dst.toNat * 16 + (x.fields .big).src.toNat ∧
      (x.fields .big).offset.toNat = x.b3.toNat + x.b2.toNat * 2 ^ 8 ∧
      (x.fields .big).imm.toNat = x.b7.toNat + x.b6.toNat * 2 ^ 8 + x.b5.toNat * 2 ^ 16 + x.b4.toNat * 2 ^ 24)

/-- The bits of the canonical word, and nine such words decoded to the instructions they stand for (30_encoding.md R81, 40_arith_alu.md R127, 41_arith_alu64.md R193, 42_byteswap.md R206, 43_jump.md R249, 44_jump32.md R283, 45_load_store.md R292, 46_atomic.md R342, 47_imm64.md R351, 48_packet.md R369). Rests on the spec's own decisions or the model's: 92_eei_decisions.md D2 for the canonical word. -/
def Obligations.SampleWordsDecode : Prop :=
  (∀ f : Fields, f.word.toNat = f.opcode.toNat + f.dst.toNat * 2 ^ 8 + f.src.toNat * 2 ^ 12
    + f.offset.toNat * 2 ^ 16 + f.imm.toNat * 2 ^ 32) ∧
  (decodeTableWord 64 0x000000000000210c = some (.addXAlu .r1 .r2)) ∧
  (decodeTableWord 64 0x00000000000021cf = some (.arshXAlu64 .r1 .r2)) ∧
  (decodeTableWord 64 0x00000010000001dc = some (.endToBeAlu16 .r1)) ∧
  (decodeTableWord 64 0x0000000500001085 = some (.callLocalKJmp 5)) ∧
  (decodeTableWord 64 0x00000000000321de = some (.jsleXJmp32 .r1 .r2 3)) ∧
  (decodeTableWord 64 0x0000000000082161 = some (.memWLdx .r1 .r2 8)) ∧
  (decodeTableWord 64 0x000000f1000021c3 = some (.atomicWStxCmpxchg .r1 .r2 0)) ∧
  (decodeTableWord 128 0x11223344000000005566778800000118 = some (.immDwLd0 .r1 0x55667788 0x11223344)) ∧
  (decodeTableWord 64 0x0000000e00003040 = some (.indWLd .r3 14))

/-- The decoder refuses every opcode byte the opcode map does not list, and accepts some word of every other (30_encoding.md R93, 30_encoding.md R94, 30_encoding.md R95, 30_encoding.md R96). Rests on the spec's own decisions or the model's: 92_eei_decisions.md D8. -/
def Obligations.UnlistedOpcodesRefused : Prop :=
  ∀ opcode : BitVec 8,
    if opcode.toNat ∈ [
      0x00, 0x01, 0x02, 0x03, 0x08, 0x09, 0x0a, 0x0b, 0x0d, 0x0e, 0x10, 0x11, 0x12, 0x13, 0x19, 0x1a,
      0x1b, 0x21, 0x22, 0x23, 0x29, 0x2a, 0x2b, 0x31, 0x32, 0x33, 0x38, 0x39, 0x3a, 0x3b, 0x41, 0x42,
      0x43, 0x49, 0x4a, 0x4b, 0x51, 0x52, 0x53, 0x58, 0x59, 0x5a, 0x5b, 0x60, 0x68, 0x70, 0x78, 0x80,
      0x82, 0x83, 0x86, 0x88, 0x8a, 0x8b, 0x8c, 0x8d, 0x8e, 0x8f, 0x90, 0x92, 0x93, 0x96, 0x98, 0x99,
      0x9a, 0x9b, 0x9d, 0x9e, 0xa0, 0xa1, 0xa2, 0xa3, 0xa8, 0xa9, 0xaa, 0xab, 0xb0, 0xb1, 0xb2, 0xb3,
      0xb8, 0xb9, 0xba, 0xbb, 0xc0, 0xc1, 0xc2, 0xc8, 0xc9, 0xca, 0xcb, 0xd0, 0xd1, 0xd2, 0xd3, 0xd8,
      0xd9, 0xda, 0xdf, 0xe0, 0xe1, 0xe2, 0xe3, 0xe4, 0xe5, 0xe6, 0xe7, 0xe8, 0xe9, 0xea, 0xeb, 0xec,
      0xed, 0xee, 0xef, 0xf0, 0xf1, 0xf2, 0xf3, 0xf4, 0xf5, 0xf6, 0xf7, 0xf8, 0xf9, 0xfa, 0xfb, 0xfc,
      0xfd, 0xfe, 0xff]
    then ∀ a second, a.opcode = opcode → decode a second = .error .unknownOpcode
    else ∃ (a : Fields) (second : Option Fields) (i : Instr), a.opcode = opcode ∧ decode a second = .ok i

/-- A step of a running machine runs the instruction decoded at the pc (30_encoding.md R98, 10_state.md R34). Rests on the spec's own decisions or the model's: log entry 5 for the environment that moves on (DESIGN CHOICE); the hypothesis that the instruction is well formed is log entry 7 (DEDUCED: a listed group brings the ones it includes) and log entry 15 (DESIGN CHOICE: these checks stand in the fetch). -/
def Obligations.StepRunsDecodedInstruction : Prop :=
  ∀ (s : State) (slot : Slot) (i : Instr), s.status = .running → s.text[s.pc]? = some slot →
    decodeSlots s.params.hostEndian slot s.text[s.pc + 1]? = .ok i → i.wellFormed s.params = true →
    (∀ t, exec i s = .next t → step s = .next { t with env := Config.envNext t.env t.mem }) ∧
    (∀ f, exec i s = .fault f → step s = .fault f) ∧
    (∀ r, exec i s = .refused r → step s = .refused r)

/-- Fetching past the last slot, or a wide instruction the end cuts off, raises FetchOutOfProgram (60_exceptions.md R384, 30_encoding.md R98). Rests on the spec's own decisions or the model's: 92_eei_decisions.md D13. -/
def Obligations.FetchOutOfProgramFaults : Prop :=
  ∀ s : State, s.status = .running →
    (s.text.length ≤ s.pc → step s = .fault (.fetchOutOfProgram s.pc)) ∧
    (∀ slot, s.text[s.pc]? = some slot → slot.b0 = 0x18 → s.text.length = s.pc + 1 →
      step s = .fault (.fetchOutOfProgram s.pc))

/-- A word that spells no instruction raises IllegalInstruction with the canonical words (60_exceptions.md R383, 60_exceptions.md R382, 30_encoding.md R96, 30_encoding.md R98). Rests on the spec's own decisions or the model's: 92_eei_decisions.md D4, D6, D7, D8. -/
def Obligations.IllegalWordFaults : Prop :=
  ∀ (s : State) (slot : Slot), s.status = .running → s.text[s.pc]? = some slot →
    ((∃ err, decodeSlots s.params.hostEndian slot s.text[s.pc + 1]? = .error err ∧ err ≠ .truncated) ∨
      ∃ i, decodeSlots s.params.hostEndian slot s.text[s.pc + 1]? = .ok i ∧
        (s.params.supports i.group = false ∨ i.writesReg = some .r10 ∧ s.params.r10Readonly = true)) →
    (slot.b0 ≠ 0x18 →
      step s = .fault (.illegalInstruction s.pc (slot.fields s.params.hostEndian).word none)) ∧
    (∀ second, slot.b0 = 0x18 → s.text[s.pc + 1]? = some second →
      step s = .fault (.illegalInstruction s.pc (slot.fields s.params.hostEndian).word
        (some (second.fields s.params.hostEndian).word)))

/-- An instruction that would write R10, or whose group is not supported, is not executed (10_state.md R23, 00_scope.md R2, 30_encoding.md R98, 60_exceptions.md R383). Rests on the spec's own decisions or the model's: 92_eei_decisions.md D4, D8; that a listed group brings the ones it includes is DEDUCED, log entry 7. -/
def Obligations.ReadOnlyR10AndUnsupportedGroups : Prop :=
  ∀ (s : State) (i : Instr), s.status = .running →
    s.text[s.pc]? = some (encodeSlots s.params.hostEndian i).1 →
    (∀ x, (encodeSlots s.params.hostEndian i).2 = some x → s.text[s.pc + 1]? = some x) →
    ((s.params.r10Readonly = true ∧ i.writesReg = some .r10) ∨
      i.group ∉ s.params.groups ∧ (i.group = .base32 → .base64 ∉ s.params.groups) ∧
        (i.group = .atomic32 → .atomic64 ∉ s.params.groups) ∧
        (i.group = .divmul32 → .divmul64 ∉ s.params.groups)) →
    step s = .fault (.illegalInstruction s.pc (encode i).1 (encode i).2)

/-- A machine that has exited, faulted or been refused never steps or changes again (10_state.md R34, 60_exceptions.md R381, 70_reset_and_hazards.md R422). Rests on the spec's own decisions or the model's: 92_eei_decisions.md D30. -/
def Obligations.OnlyRunningMachineSteps : Prop :=
  (∀ (n : Nat) (s : State), s.status ≠ .running → runFor n s = s ∧ ∀ t, step s ≠ .next t) ∧
  (∀ (s : State) (f : Fault), s.status = .running → step s = .fault f →
    ∀ n, runFor (n + 1) s = { s with status := .faulted f }) ∧
  (∀ (s : State) (r : Refusal), s.status = .running → step s = .refused r →
    ∀ n, runFor (n + 1) s = { s with status := .refused r })

/-- The reset state meets the invariants (10_state.md R36). Rests on the spec's own decisions or the model's: the register values are the model's choice, log entry 1. -/
def Obligations.ResetMeetsInvariants : Prop :=
  Inv State.reset ∧ FrameInv State.reset

/-- Every step keeps memory canonical, the call stack bounded and well formed, the pc between instructions (10_state.md R26, 10_state.md R31, 10_state.md R33, 43_jump.md R222, 43_jump.md R224, 60_exceptions.md R389). Rests on the spec's own decisions or the model's: 92_eei_decisions.md D13, D15; the canonical form is the model's, log entry 4; the greatest depth on record is the model's, log entry 12. -/
def Obligations.StepKeepsInv : Prop :=
  ∀ s t : State, Inv s → step s = .next t → Inv t

/-- Under fresh_frame with R10 read-only, R10 is always the frame pointer of the current depth (10_state.md R21, 10_state.md R23, 43_jump.md R224, 43_jump.md R249, 43_jump.md R251). Rests on the spec's own decisions or the model's: 92_eei_decisions.md D4, D15; log entry 9 for an entry R10 that holds nothing. -/
def Obligations.StepKeepsFrameInv : Prop :=
  ∀ s t : State, FrameInv s → step s = .next t → FrameInv t

/-- No step changes the program text or the parameters, so no store changes a later fetch (20_memory.md R66, 10_state.md R30, 20_memory.md R50). Rests on the spec's own decisions or the model's: 92_eei_decisions.md D27; that both stand in the state is the model's choice, log entry 3. -/
def Obligations.TextAndParamsNeverChange : Prop :=
  ∀ (n : Nat) (s : State), (runFor n s).text = s.text ∧ (runFor n s).params = s.params

/-- A stored byte changes only by an admitted store or atomic, a helper allowed there, or a call that reuses its frame (20_memory.md R55, 20_memory.md R56, 20_memory.md R58, 43_jump.md R223, 43_jump.md R224, 43_jump.md R251, 10_state.md R31). Rests on the spec's own decisions or the model's: 92_eei_decisions.md D14, D15, D19; log entry 12 for the reused frame of a function. -/
def Obligations.MemoryChangesOnlyWhereAdmitted : Prop :=
  ∀ (s t : State) (a : Word), step s = .next t →
    Memory.find t.mem a.toNat ≠ Memory.find s.mem a.toNat →
    ∃ i, fetch s = .ok i ∧
      ((∃ q base k, requestOf i = some q ∧ q.kind ≠ .read ∧ s.reg q.base = .holds base ∧
          s.params.accessOk (effectiveAddr base q.offset) q.size q.kind = true ∧ k < q.size.bytes ∧
          a = effectiveAddr base q.offset + BitVec.ofNat 64 k) ∨
        (∃ imm, i = .callHelperKJmp imm ∨ i = .callBtfKJmp imm) ∧
          (∃ sp ∈ s.params.helperMayWrite, sp.base ≤ a.toNat ∧ a.toNat < sp.base + sp.size) ∨
        (∃ imm, i = .callLocalKJmp imm) ∧ s.params.framePolicy = .freshFrame ∧ s.cs.length < s.deepest ∧
          ∃ fp k, t.reg .r10 = .holds fp ∧ k < s.params.stackSize ∧ a = fp - BitVec.ofNat 64 (k + 1))

/-- While R10 is read-only, only a program-local call or EXIT changes it (10_state.md R21, 10_state.md R23, 43_jump.md R249, 43_jump.md R251). Rests on the spec's own decisions or the model's: 92_eei_decisions.md D4, D15. -/
def Obligations.R10ChangesOnlyByCallAndExit : Prop :=
  ∀ s t : State, s.params.r10Readonly = true → step s = .next t → t.reg .r10 ≠ s.reg .r10 →
    ∃ i, fetch s = .ok i ∧ ((∃ imm, i = .callLocalKJmp imm) ∨ i = .exitKJmp)

/-- Only a program-local call pushes a frame and only EXIT pops one (10_state.md R33, 43_jump.md R249, 43_jump.md R251). Rests on the spec's own decisions or the model's: 92_eei_decisions.md D15. -/
def Obligations.CallStackChangesOnlyByCallAndExit : Prop :=
  ∀ s t : State, step s = .next t →
    t.cs = s.cs ∨
      ∃ i, fetch s = .ok i ∧
        ((∃ imm f, i = .callLocalKJmp imm ∧ t.cs = f :: s.cs ∧ f.ret = s.pc + 1) ∨
          i = .exitKJmp ∧ ∃ f, s.cs = f :: t.cs)

/-- A step that completes leaves the machine running, or ran the outermost EXIT with R0 as the result (60_exceptions.md R401, 70_reset_and_hazards.md R422, 43_jump.md R251). Rests on the spec's own decisions or the model's: 92_eei_decisions.md D16. -/
def Obligations.RunEndsOnlyByOutermostExit : Prop :=
  ∀ s t : State, step s = .next t →
    t.status = .running ∨
      (fetch s = .ok .exitKJmp ∧ s.cs = [] ∧ t.pc = s.pc ∧ ∃ r, s.reg .r0 = .holds r ∧ t.status = .exited r)

/-- Every instruction but jumps, program-local calls and EXIT goes on to the next instruction (10_state.md R24, 10_state.md R25). Rests on the spec's own decisions or the model's: R25 is marked derived. -/
def Obligations.OnlyJumpsSetThePc : Prop :=
  ∀ (i : Instr) (s t : State), setsPc i = false → exec i s = .next t →
    t.pc = s.pc + (if i.fields.opcode = 0x18 then 2 else 1)

/-- ADD, SUB and MUL of class ALU complete with the 32-bit result, wrapped and zero-extended (40_arith_alu.md R120, 40_arith_alu.md R121, 40_arith_alu.md R126, 40_arith_alu.md R127, 40_arith_alu.md R128, 40_arith_alu.md R129, 40_arith_alu.md R130, 40_arith_alu.md R131). -/
def Obligations.Alu32AddSubtractMultiply : Prop :=
  ∀ (s : State) (dst src : Reg) (imm : BitVec 32) (x : Word), s.reg dst = .holds x →
    Completes (.addKAlu dst imm) s dst (BitVec.ofNat 64 ((x.toNat % 2 ^ 32 + imm.toNat) % 2 ^ 32)) ∧
    Completes (.subKAlu dst imm) s dst (BitVec.ofNat 64 ((x.toNat % 2 ^ 32 + 2 ^ 32 - imm.toNat) % 2 ^ 32)) ∧
    Completes (.mulKAlu dst imm) s dst (BitVec.ofNat 64 (x.toNat % 2 ^ 32 * imm.toNat % 2 ^ 32)) ∧
    ∀ y : Word, s.reg src = .holds y →
      Completes (.addXAlu dst src) s dst (BitVec.ofNat 64 ((x.toNat % 2 ^ 32 + (y.toNat % 2 ^ 32)) % 2 ^ 32)) ∧
      Completes (.subXAlu dst src) s dst (BitVec.ofNat 64 ((x.toNat % 2 ^ 32 + 2 ^ 32 - (y.toNat % 2 ^ 32)) % 2 ^ 32)) ∧
      Completes (.mulXAlu dst src) s dst (BitVec.ofNat 64 (x.toNat % 2 ^ 32 * (y.toNat % 2 ^ 32) % 2 ^ 32))

/-- DIV and MOD of class ALU complete with the unsigned quotient and remainder of the low halves (40_arith_alu.md R120, 40_arith_alu.md R122, 40_arith_alu.md R132, 40_arith_alu.md R133, 40_arith_alu.md R145, 40_arith_alu.md R146). -/
def Obligations.Alu32UnsignedDivideModulo : Prop :=
  ∀ (s : State) (dst src : Reg) (imm : BitVec 32) (x : Word), s.reg dst = .holds x →
    Completes (.divKAlu dst imm) s dst (BitVec.ofNat 64 (if imm.toNat = 0 then 0 else x.toNat % 2 ^ 32 / imm.toNat)) ∧
    Completes (.modKAlu dst imm) s dst (BitVec.ofNat 64 (if imm.toNat = 0 then x.toNat % 2 ^ 32 else x.toNat % 2 ^ 32 % imm.toNat)) ∧
    ∀ y : Word, s.reg src = .holds y →
      Completes (.divXAlu dst src) s dst (BitVec.ofNat 64 (if (y.toNat % 2 ^ 32) = 0 then 0 else x.toNat % 2 ^ 32 / (y.toNat % 2 ^ 32))) ∧
      Completes (.modXAlu dst src) s dst (BitVec.ofNat 64 (if (y.toNat % 2 ^ 32) = 0 then x.toNat % 2 ^ 32 else x.toNat % 2 ^ 32 % (y.toNat % 2 ^ 32)))

/-- OR, AND and XOR of class ALU complete with the low 32 bits of the bitwise result (40_arith_alu.md R120, 40_arith_alu.md R136, 40_arith_alu.md R137, 40_arith_alu.md R138, 40_arith_alu.md R139, 40_arith_alu.md R149, 40_arith_alu.md R150). -/
def Obligations.Alu32Bitwise : Prop :=
  ∀ (s : State) (dst src : Reg) (imm : BitVec 32) (x : Word), s.reg dst = .holds x →
    Completes (.orKAlu dst imm) s dst ((x ||| imm.setWidth 64) &&& 0xffffffff#64) ∧
    Completes (.andKAlu dst imm) s dst ((x &&& imm.setWidth 64) &&& 0xffffffff#64) ∧
    Completes (.xorKAlu dst imm) s dst ((x ^^^ imm.setWidth 64) &&& 0xffffffff#64) ∧
    ∀ y : Word, s.reg src = .holds y →
      Completes (.orXAlu dst src) s dst ((x ||| y) &&& 0xffffffff#64) ∧
      Completes (.andXAlu dst src) s dst ((x &&& y) &&& 0xffffffff#64) ∧
      Completes (.xorXAlu dst src) s dst ((x ^^^ y) &&& 0xffffffff#64)

/-- ADD, SUB and MUL of class ALU64 complete with the 64-bit result, wrapped (41_arith_alu64.md R160, 41_arith_alu64.md R161, 40_arith_alu.md R121, 41_arith_alu64.md R162, 41_arith_alu64.md R163, 41_arith_alu64.md R164, 41_arith_alu64.md R165, 41_arith_alu64.md R166, 41_arith_alu64.md R167). Rests on the spec's own decisions or the model's: 92_eei_decisions.md D9. -/
def Obligations.Alu64AddSubtractMultiply : Prop :=
  ∀ (s : State) (dst src : Reg) (imm : BitVec 32) (x : Word), s.reg dst = .holds x →
    Completes (.addKAlu64 dst imm) s dst (BitVec.ofNat 64 (x.toNat + (imm.signExtend 64).toNat)) ∧
    Completes (.subKAlu64 dst imm) s dst (BitVec.ofNat 64 (x.toNat + 2 ^ 64 - (imm.signExtend 64).toNat)) ∧
    Completes (.mulKAlu64 dst imm) s dst (BitVec.ofNat 64 (x.toNat * (imm.signExtend 64).toNat)) ∧
    ∀ y : Word, s.reg src = .holds y →
      Completes (.addXAlu64 dst src) s dst (BitVec.ofNat 64 (x.toNat + y.toNat)) ∧
      Completes (.subXAlu64 dst src) s dst (BitVec.ofNat 64 (x.toNat + 2 ^ 64 - y.toNat)) ∧
      Completes (.mulXAlu64 dst src) s dst (BitVec.ofNat 64 (x.toNat * y.toNat))

/-- DIV and MOD of class ALU64 complete with the unsigned quotient and remainder (41_arith_alu64.md R160, 41_arith_alu64.md R161, 40_arith_alu.md R122, 41_arith_alu64.md R168, 41_arith_alu64.md R169, 41_arith_alu64.md R181, 41_arith_alu64.md R182). Rests on the spec's own decisions or the model's: 92_eei_decisions.md D9. -/
def Obligations.Alu64UnsignedDivideModulo : Prop :=
  ∀ (s : State) (dst src : Reg) (imm : BitVec 32) (x : Word), s.reg dst = .holds x →
    Completes (.divKAlu64 dst imm) s dst (BitVec.ofNat 64 (if (imm.signExtend 64).toNat = 0 then 0 else x.toNat / (imm.signExtend 64).toNat)) ∧
    Completes (.modKAlu64 dst imm) s dst (BitVec.ofNat 64 (if (imm.signExtend 64).toNat = 0 then x.toNat else x.toNat % (imm.signExtend 64).toNat)) ∧
    ∀ y : Word, s.reg src = .holds y →
      Completes (.divXAlu64 dst src) s dst (BitVec.ofNat 64 (if y.toNat = 0 then 0 else x.toNat / y.toNat)) ∧
      Completes (.modXAlu64 dst src) s dst (BitVec.ofNat 64 (if y.toNat = 0 then x.toNat else x.toNat % y.toNat))

/-- OR, AND and XOR of class ALU64 complete with the 64-bit bitwise result (41_arith_alu64.md R160, 41_arith_alu64.md R161, 41_arith_alu64.md R172, 41_arith_alu64.md R173, 41_arith_alu64.md R174, 41_arith_alu64.md R175, 41_arith_alu64.md R185, 41_arith_alu64.md R186). Rests on the spec's own decisions or the model's: 92_eei_decisions.md D9. -/
def Obligations.Alu64Bitwise : Prop :=
  ∀ (s : State) (dst src : Reg) (imm : BitVec 32) (x : Word), s.reg dst = .holds x →
    Completes (.orKAlu64 dst imm) s dst (x ||| imm.signExtend 64) ∧
    Completes (.andKAlu64 dst imm) s dst (x &&& imm.signExtend 64) ∧
    Completes (.xorKAlu64 dst imm) s dst (x ^^^ imm.signExtend 64) ∧
    ∀ y : Word, s.reg src = .holds y →
      Completes (.orXAlu64 dst src) s dst (x ||| y) ∧
      Completes (.andXAlu64 dst src) s dst (x &&& y) ∧
      Completes (.xorXAlu64 dst src) s dst (x ^^^ y)

/-- MOV, MOVSX and NEG of class ALU complete with the 32-bit result zero-extended (40_arith_alu.md R120, 00_scope.md R10, 40_arith_alu.md R144, 40_arith_alu.md R151, 40_arith_alu.md R152, 40_arith_alu.md R153, 40_arith_alu.md R154). -/
def Obligations.Alu32MoveNegate : Prop :=
  ∀ (s : State) (dst src : Reg) (imm : BitVec 32),
    Completes (.movKAlu dst imm) s dst (BitVec.ofNat 64 imm.toNat) ∧
    (∀ y : Word, s.reg src = .holds y →
      Completes (.movXAlu dst src) s dst (BitVec.ofNat 64 (y.toNat % 2 ^ 32)) ∧
      Completes (.movsx8XAlu dst src) s dst (BitVec.ofInt 64 (Int.bmod y.toNat (2 ^ 8) % 2 ^ 32)) ∧
      Completes (.movsx16XAlu dst src) s dst (BitVec.ofInt 64 (Int.bmod y.toNat (2 ^ 16) % 2 ^ 32))) ∧
    ∀ x : Word, s.reg dst = .holds x →
      Completes (.negKAlu dst) s dst (BitVec.ofNat 64 ((2 ^ 32 - x.toNat % 2 ^ 32) % 2 ^ 32))

/-- MOV, MOVSX and NEG of class ALU64 complete with the 64-bit result (41_arith_alu64.md R160, 41_arith_alu64.md R161, 00_scope.md R10, 41_arith_alu64.md R180, 41_arith_alu64.md R187, 41_arith_alu64.md R188, 41_arith_alu64.md R189, 41_arith_alu64.md R190, 41_arith_alu64.md R191). Rests on the spec's own decisions or the model's: 92_eei_decisions.md D9. -/
def Obligations.Alu64MoveNegate : Prop :=
  ∀ (s : State) (dst src : Reg) (imm : BitVec 32),
    Completes (.movKAlu64 dst imm) s dst (BitVec.ofInt 64 imm.toInt) ∧
    (∀ y : Word, s.reg src = .holds y →
      Completes (.movXAlu64 dst src) s dst y ∧
      Completes (.movsx8XAlu64 dst src) s dst (BitVec.ofInt 64 (Int.bmod y.toNat (2 ^ 8))) ∧
      Completes (.movsx16XAlu64 dst src) s dst (BitVec.ofInt 64 (Int.bmod y.toNat (2 ^ 16))) ∧
      Completes (.movsx32XAlu64 dst src) s dst (BitVec.ofInt 64 (Int.bmod y.toNat (2 ^ 32)))) ∧
    ∀ x : Word, s.reg dst = .holds x →
      Completes (.negKAlu64 dst) s dst (BitVec.ofNat 64 (2 ^ 64 - x.toNat))

/-- LSH, RSH and ARSH complete, shifting by the operand modulo 32 or 64 (40_arith_alu.md R124, 40_arith_alu.md R140, R141, R142, R143, 40_arith_alu.md R155, R156, 41_arith_alu64.md R176, R177, R178, R179, 41_arith_alu64.md R192, R193). Rests on the spec's own decisions or the model's: 92_eei_decisions.md D11 for an immediate amount. -/
def Obligations.ShiftsMaskTheAmount : Prop :=
  ∀ (s : State) (dst src : Reg) (imm : BitVec 32) (x : Word), s.reg dst = .holds x →
    Completes (.lshKAlu dst imm) s dst (BitVec.ofNat 64 (x.toNat % 2 ^ 32 * 2 ^ (imm.toNat % 32) % 2 ^ 32)) ∧
    Completes (.rshKAlu dst imm) s dst (BitVec.ofNat 64 (x.toNat % 2 ^ 32 / 2 ^ (imm.toNat % 32))) ∧
    Completes (.arshKAlu dst imm) s dst (BitVec.ofInt 64 (Int.bmod x.toNat (2 ^ 32) / 2 ^ (imm.toNat % 32) % 2 ^ 32)) ∧
    Completes (.lshKAlu64 dst imm) s dst (BitVec.ofNat 64 (x.toNat * 2 ^ (imm.toNat % 64))) ∧
    Completes (.rshKAlu64 dst imm) s dst (BitVec.ofNat 64 (x.toNat / 2 ^ (imm.toNat % 64))) ∧
    Completes (.arshKAlu64 dst imm) s dst (BitVec.ofInt 64 (x.toInt / 2 ^ (imm.toNat % 64))) ∧
    ∀ y : Word, s.reg src = .holds y →
      Completes (.lshXAlu dst src) s dst (BitVec.ofNat 64 (x.toNat % 2 ^ 32 * 2 ^ (y.toNat % 32) % 2 ^ 32)) ∧
      Completes (.rshXAlu dst src) s dst (BitVec.ofNat 64 (x.toNat % 2 ^ 32 / 2 ^ (y.toNat % 32))) ∧
      Completes (.arshXAlu dst src) s dst (BitVec.ofInt 64 (Int.bmod x.toNat (2 ^ 32) / 2 ^ (y.toNat % 32) % 2 ^ 32)) ∧
      Completes (.lshXAlu64 dst src) s dst (BitVec.ofNat 64 (x.toNat * 2 ^ (y.toNat % 64))) ∧
      Completes (.rshXAlu64 dst src) s dst (BitVec.ofNat 64 (x.toNat / 2 ^ (y.toNat % 64))) ∧
      Completes (.arshXAlu64 dst src) s dst (BitVec.ofInt 64 (x.toInt / 2 ^ (y.toNat % 64)))

/-- SDIV and SMOD complete with the quotient truncated toward zero and its remainder, wrapped (40_arith_alu.md R122, 40_arith_alu.md R123, 40_arith_alu.md R134, 40_arith_alu.md R135, 40_arith_alu.md R147, 40_arith_alu.md R148, 41_arith_alu64.md R170, 41_arith_alu64.md R171, 41_arith_alu64.md R183, 41_arith_alu64.md R184). Rests on the spec's own decisions or the model's: 92_eei_decisions.md D10. -/
def Obligations.SignedDivisionTruncates : Prop :=
  ∀ (s : State) (dst src : Reg) (imm : BitVec 32) (x : Word), s.reg dst = .holds x →
    Completes (.sdivKAlu dst imm) s dst (BitVec.ofInt 64 ((if imm.toInt = 0 then 0 else Int.tdiv (x.setWidth 32).toInt imm.toInt) % 2 ^ 32)) ∧
    Completes (.smodKAlu dst imm) s dst (BitVec.ofInt 64 ((if imm.toInt = 0 then (x.setWidth 32).toInt else Int.tmod (x.setWidth 32).toInt imm.toInt) % 2 ^ 32)) ∧
    Completes (.sdivKAlu64 dst imm) s dst (BitVec.ofInt 64 (if imm.toInt = 0 then 0 else Int.tdiv x.toInt imm.toInt)) ∧
    Completes (.smodKAlu64 dst imm) s dst (BitVec.ofInt 64 (if imm.toInt = 0 then x.toInt else Int.tmod x.toInt imm.toInt)) ∧
    ∀ y : Word, s.reg src = .holds y →
      Completes (.sdivXAlu dst src) s dst (BitVec.ofInt 64 ((if (y.setWidth 32).toInt = 0 then 0 else Int.tdiv (x.setWidth 32).toInt (y.setWidth 32).toInt) % 2 ^ 32)) ∧
      Completes (.smodXAlu dst src) s dst (BitVec.ofInt 64 ((if (y.setWidth 32).toInt = 0 then (x.setWidth 32).toInt else Int.tmod (x.setWidth 32).toInt (y.setWidth 32).toInt) % 2 ^ 32)) ∧
      Completes (.sdivXAlu64 dst src) s dst (BitVec.ofInt 64 (if y.toInt = 0 then 0 else Int.tdiv x.toInt y.toInt)) ∧
      Completes (.smodXAlu64 dst src) s dst (BitVec.ofInt 64 (if y.toInt = 0 then x.toInt else Int.tmod x.toInt y.toInt))

/-- Division by zero gives zero and modulo by zero keeps the dividend; neither faults (40_arith_alu.md R122, 60_exceptions.md R402). Rests on the spec's own decisions or the model's: the width of the divisor tested is marked derived in R122. -/
def Obligations.ZeroDivisorsAreDefined : Prop :=
  ∀ (s : State) (dst src : Reg) (x : Word), s.reg dst = .holds x →
    Completes (.divKAlu dst 0) s dst 0 ∧
    Completes (.divKAlu64 dst 0) s dst 0 ∧
    Completes (.sdivKAlu dst 0) s dst 0 ∧
    Completes (.sdivKAlu64 dst 0) s dst 0 ∧
    Completes (.modKAlu dst 0) s dst (BitVec.ofNat 64 (x.toNat % 2 ^ 32)) ∧
    Completes (.modKAlu64 dst 0) s dst x ∧
    Completes (.smodKAlu dst 0) s dst (BitVec.ofNat 64 (x.toNat % 2 ^ 32)) ∧
    Completes (.smodKAlu64 dst 0) s dst x ∧
    (∀ y : Word, s.reg src = .holds y → y.toNat % 2 ^ 32 = 0 →
      Completes (.divXAlu dst src) s dst 0 ∧
      Completes (.sdivXAlu dst src) s dst 0 ∧
      Completes (.modXAlu dst src) s dst (BitVec.ofNat 64 (x.toNat % 2 ^ 32)) ∧
      Completes (.smodXAlu dst src) s dst (BitVec.ofNat 64 (x.toNat % 2 ^ 32))) ∧
    (s.reg src = .holds 0 →
      Completes (.divXAlu64 dst src) s dst 0 ∧
      Completes (.sdivXAlu64 dst src) s dst 0 ∧
      Completes (.modXAlu64 dst src) s dst x ∧
      Completes (.smodXAlu64 dst src) s dst x)

/-- Class ALU arithmetic never looks at the upper 32 bits of a register and clears those of its result (40_arith_alu.md R120). -/
def Obligations.Alu32IgnoresUpperHalves : Prop :=
  ∀ (i : Instr) (dst : Reg) (s s' t t' : State),
    i.fields.opcode.toNat % 8 = 4 → i.fields.opcode.toNat / 16 ≠ 13 → i.writesReg = some dst →
    (∀ r v v', s.reg r = .holds v → s'.reg r = .holds v' → v.setWidth 32 = v'.setWidth 32) →
    exec i s = .next t → exec i s' = .next t' →
    ∃ v : Word, v.toNat < 2 ^ 32 ∧ t.reg dst = .holds v ∧ t'.reg dst = .holds v

/-- An arithmetic instruction or byte swap whose registers hold values completes, whatever the values (60_exceptions.md R402, 40_arith_alu.md R121, 40_arith_alu.md R122). -/
def Obligations.ArithmeticNeverFaultsOnValues : Prop :=
  ∀ (i : Instr) (s : State), (i.fields.opcode.toNat % 8 = 4 ∨ i.fields.opcode.toNat % 8 = 7) →
    (∀ r ∈ readsOf i, ∃ v, s.reg r = .holds v) →
    ∃ dst v, i.writesReg = some dst ∧ Completes i s dst v

/-- END_TO_LE and END_TO_BE complete: the low bits as they are, or their bytes reversed, by the host (00_scope.md R11, 42_byteswap.md R201, 42_byteswap.md R202, 42_byteswap.md R203, 42_byteswap.md R204, 42_byteswap.md R205, 42_byteswap.md R206, 42_byteswap.md R207, 42_byteswap.md R208). Rests on the spec's own decisions or the model's: 92_eei_decisions.md D12. -/
def Obligations.EndConvertsHostByteOrder : Prop :=
  ∀ (s : State) (dst : Reg) (x : Word), s.reg dst = .holds x →
    (∃ v, Completes (.endToLeAlu16 dst) s dst v ∧
      (s.params.hostEndian = .little → v.toNat = x.toNat % 2 ^ 16) ∧ (s.params.hostEndian = .big → Reversed 2 x v)) ∧
    (∃ v, Completes (.endToLeAlu32 dst) s dst v ∧
      (s.params.hostEndian = .little → v.toNat = x.toNat % 2 ^ 32) ∧ (s.params.hostEndian = .big → Reversed 4 x v)) ∧
    (∃ v, Completes (.endToLeAlu64 dst) s dst v ∧
      (s.params.hostEndian = .little → v.toNat = x.toNat % 2 ^ 64) ∧ (s.params.hostEndian = .big → Reversed 8 x v)) ∧
    (∃ v, Completes (.endToBeAlu16 dst) s dst v ∧
      (s.params.hostEndian = .big → v.toNat = x.toNat % 2 ^ 16) ∧ (s.params.hostEndian = .little → Reversed 2 x v)) ∧
    (∃ v, Completes (.endToBeAlu32 dst) s dst v ∧
      (s.params.hostEndian = .big → v.toNat = x.toNat % 2 ^ 32) ∧ (s.params.hostEndian = .little → Reversed 4 x v)) ∧
    (∃ v, Completes (.endToBeAlu64 dst) s dst v ∧
      (s.params.hostEndian = .big → v.toNat = x.toNat % 2 ^ 64) ∧ (s.params.hostEndian = .little → Reversed 8 x v))

/-- END_ALU64 completes with the low bytes reversed on either host (00_scope.md R11, 42_byteswap.md R201, 42_byteswap.md R202, 42_byteswap.md R209, 42_byteswap.md R210, 42_byteswap.md R211). Rests on the spec's own decisions or the model's: 92_eei_decisions.md D12. -/
def Obligations.EndAlu64ReversesBytes : Prop :=
  ∀ (s : State) (dst : Reg) (x : Word), s.reg dst = .holds x →
    (∃ v, Completes (.endAlu64Swap16 dst) s dst v ∧ Reversed 2 x v) ∧
    (∃ v, Completes (.endAlu64Swap32 dst) s dst v ∧ Reversed 4 x v) ∧
    (∃ v, Completes (.endAlu64Swap64 dst) s dst v ∧ Reversed 8 x v)

/-- JA of both classes jumps by its signed displacement, or raises BadJumpTarget (43_jump.md R220, 43_jump.md R222, 43_jump.md R225, 44_jump32.md R261, 60_exceptions.md R385). Rests on the spec's own decisions or the model's: 92_eei_decisions.md D13. -/
def Obligations.UnconditionalJumpsByDisplacement : Prop :=
  ∀ (s : State) (offset : BitVec 16) (imm : BitVec 32),
    Jumps (.jaKJmp offset) s offset.toInt ∧ Jumps (.jaKJmp32 imm) s imm.toInt

/-- The 22 conditional jumps of class JMP branch on the comparison of 64-bit operands (43_jump.md R220, 43_jump.md R221, 43_jump.md R226, 43_jump.md R227, 43_jump.md R229, 43_jump.md R232, 43_jump.md R237, 43_jump.md R247, 60_exceptions.md R385). Rests on the spec's own decisions or the model's: 92_eei_decisions.md D9, D13. -/
def Obligations.ConditionalJumps64 : Prop :=
  ∀ (s : State) (dst src : Reg) (imm : BitVec 32) (offset : BitVec 16) (x : Word), s.reg dst = .holds x →
    Branches (.jeqKJmp dst imm offset) s (x = imm.signExtend 64) offset.toInt ∧
    Branches (.jneKJmp dst imm offset) s (¬(x = imm.signExtend 64)) offset.toInt ∧
    Branches (.jsetKJmp dst imm offset) s (x &&& imm.signExtend 64 ≠ 0) offset.toInt ∧
    Branches (.jgtKJmp dst imm offset) s (x.toNat > (imm.signExtend 64).toNat) offset.toInt ∧
    Branches (.jgeKJmp dst imm offset) s (x.toNat ≥ (imm.signExtend 64).toNat) offset.toInt ∧
    Branches (.jltKJmp dst imm offset) s (x.toNat < (imm.signExtend 64).toNat) offset.toInt ∧
    Branches (.jleKJmp dst imm offset) s (x.toNat ≤ (imm.signExtend 64).toNat) offset.toInt ∧
    Branches (.jsgtKJmp dst imm offset) s (x.toInt > imm.toInt) offset.toInt ∧
    Branches (.jsgeKJmp dst imm offset) s (x.toInt ≥ imm.toInt) offset.toInt ∧
    Branches (.jsltKJmp dst imm offset) s (x.toInt < imm.toInt) offset.toInt ∧
    Branches (.jsleKJmp dst imm offset) s (x.toInt ≤ imm.toInt) offset.toInt ∧
    ∀ y : Word, s.reg src = .holds y →
      Branches (.jeqXJmp dst src offset) s (x = y) offset.toInt ∧
      Branches (.jneXJmp dst src offset) s (¬(x = y)) offset.toInt ∧
      Branches (.jsetXJmp dst src offset) s (x &&& y ≠ 0) offset.toInt ∧
      Branches (.jgtXJmp dst src offset) s (x.toNat > y.toNat) offset.toInt ∧
      Branches (.jgeXJmp dst src offset) s (x.toNat ≥ y.toNat) offset.toInt ∧
      Branches (.jltXJmp dst src offset) s (x.toNat < y.toNat) offset.toInt ∧
      Branches (.jleXJmp dst src offset) s (x.toNat ≤ y.toNat) offset.toInt ∧
      Branches (.jsgtXJmp dst src offset) s (x.toInt > y.toInt) offset.toInt ∧
      Branches (.jsgeXJmp dst src offset) s (x.toInt ≥ y.toInt) offset.toInt ∧
      Branches (.jsltXJmp dst src offset) s (x.toInt < y.toInt) offset.toInt ∧
      Branches (.jsleXJmp dst src offset) s (x.toInt ≤ y.toInt) offset.toInt

/-- The 22 conditional jumps of class JMP32 branch on the comparison of the low 32 bits (43_jump.md R220, 44_jump32.md R260, 44_jump32.md R262, 44_jump32.md R263, 44_jump32.md R265, 44_jump32.md R268, 44_jump32.md R273, 44_jump32.md R283, 60_exceptions.md R385). Rests on the spec's own decisions or the model's: 92_eei_decisions.md D13. -/
def Obligations.ConditionalJumps32 : Prop :=
  ∀ (s : State) (dst src : Reg) (imm : BitVec 32) (offset : BitVec 16) (x : Word), s.reg dst = .holds x →
    Branches (.jeqKJmp32 dst imm offset) s (x.toNat % 2 ^ 32 = imm.toNat) offset.toInt ∧
    Branches (.jneKJmp32 dst imm offset) s (¬(x.toNat % 2 ^ 32 = imm.toNat)) offset.toInt ∧
    Branches (.jsetKJmp32 dst imm offset) s ((x &&& imm.setWidth 64) ≠ 0) offset.toInt ∧
    Branches (.jgtKJmp32 dst imm offset) s (x.toNat % 2 ^ 32 > imm.toNat) offset.toInt ∧
    Branches (.jgeKJmp32 dst imm offset) s (x.toNat % 2 ^ 32 ≥ imm.toNat) offset.toInt ∧
    Branches (.jltKJmp32 dst imm offset) s (x.toNat % 2 ^ 32 < imm.toNat) offset.toInt ∧
    Branches (.jleKJmp32 dst imm offset) s (x.toNat % 2 ^ 32 ≤ imm.toNat) offset.toInt ∧
    Branches (.jsgtKJmp32 dst imm offset) s (Int.bmod x.toNat (2 ^ 32) > imm.toInt) offset.toInt ∧
    Branches (.jsgeKJmp32 dst imm offset) s (Int.bmod x.toNat (2 ^ 32) ≥ imm.toInt) offset.toInt ∧
    Branches (.jsltKJmp32 dst imm offset) s (Int.bmod x.toNat (2 ^ 32) < imm.toInt) offset.toInt ∧
    Branches (.jsleKJmp32 dst imm offset) s (Int.bmod x.toNat (2 ^ 32) ≤ imm.toInt) offset.toInt ∧
    ∀ y : Word, s.reg src = .holds y →
      Branches (.jeqXJmp32 dst src offset) s (x.toNat % 2 ^ 32 = y.toNat % 2 ^ 32) offset.toInt ∧
      Branches (.jneXJmp32 dst src offset) s (¬(x.toNat % 2 ^ 32 = y.toNat % 2 ^ 32)) offset.toInt ∧
      Branches (.jsetXJmp32 dst src offset) s ((x &&& y).toNat % 2 ^ 32 ≠ 0) offset.toInt ∧
      Branches (.jgtXJmp32 dst src offset) s (x.toNat % 2 ^ 32 > y.toNat % 2 ^ 32) offset.toInt ∧
      Branches (.jgeXJmp32 dst src offset) s (x.toNat % 2 ^ 32 ≥ y.toNat % 2 ^ 32) offset.toInt ∧
      Branches (.jltXJmp32 dst src offset) s (x.toNat % 2 ^ 32 < y.toNat % 2 ^ 32) offset.toInt ∧
      Branches (.jleXJmp32 dst src offset) s (x.toNat % 2 ^ 32 ≤ y.toNat % 2 ^ 32) offset.toInt ∧
      Branches (.jsgtXJmp32 dst src offset) s (Int.bmod x.toNat (2 ^ 32) > Int.bmod y.toNat (2 ^ 32)) offset.toInt ∧
      Branches (.jsgeXJmp32 dst src offset) s (Int.bmod x.toNat (2 ^ 32) ≥ Int.bmod y.toNat (2 ^ 32)) offset.toInt ∧
      Branches (.jsltXJmp32 dst src offset) s (Int.bmod x.toNat (2 ^ 32) < Int.bmod y.toNat (2 ^ 32)) offset.toInt ∧
      Branches (.jsleXJmp32 dst src offset) s (Int.bmod x.toNat (2 ^ 32) ≤ Int.bmod y.toNat (2 ^ 32)) offset.toInt

/-- Legal targets are the instruction starts a scan from slot 0 finds inside the program (43_jump.md R222, 10_state.md R26). Rests on the spec's own decisions or the model's: 92_eei_decisions.md D13. -/
def Obligations.LegalStartsByScan : Prop :=
  ∀ text : List Slot,
    (legalTarget text 0 = true ↔ text ≠ []) ∧
    (∀ t : Int, t < 0 ∨ (text.length : Int) ≤ t → legalTarget text t = false) ∧
    ∀ (n : Nat) (x : Slot), legalTarget text n = true → text[n]? = some x →
      (x.b0 = 0x18 → legalTarget text (n + 1) = false ∧
        (legalTarget text (n + 2) = true ↔ n + 2 < text.length)) ∧
      (x.b0 ≠ 0x18 → (legalTarget text (n + 1) = true ↔ n + 1 < text.length))

/-- CALL_LOCAL_K_JMP completes: it pushes a frame and enters the function at its target; a reused frame is unspecified (43_jump.md R224, 43_jump.md R249, 43_jump.md R251, 10_state.md R33, 20_memory.md R63). Rests on the spec's own decisions or the model's: 92_eei_decisions.md D15; that a reused frame is all STACK_SIZE bytes and every other byte stays is log entry 12 (DEDUCED), as is the record of the greatest depth; R10 and the frame where R10 holds nothing at launch are log entry 9 (DESIGN CHOICE). -/
def Obligations.CallLocalCompletes : Prop :=
  ∀ (s : State) (imm : BitVec 32), legalTarget s.text (s.pc + 1 + imm.toInt) = true →
    s.cs.length < s.params.maxCallDepth →
    ∃ t, exec (.callLocalKJmp imm) s = .next t ∧ t.pc = (s.pc + 1 + imm.toInt).toNat ∧
      t.deepest = max s.deepest (s.cs.length + 1) ∧
      t.status = s.status ∧ t.text = s.text ∧ t.params = s.params ∧ t.env = s.env ∧
      (s.params.framePolicy = .freshFrame →
        t.cs = ⟨s.pc + 1, some ⟨s.reg .r6, s.reg .r7, s.reg .r8, s.reg .r9, s.reg .r10⟩⟩ :: s.cs ∧
        (∀ r ∈ [Reg.r0, .r1, .r2, .r3, .r4, .r5], t.reg r = s.reg r) ∧
        (∀ r ∈ [Reg.r6, .r7, .r8, .r9], t.reg r = .unwritten) ∧
        t.reg .r10 = s.params.calleeFpAt (s.cs.length + 1) ∧
        ∀ top, s.params.calleeFp = [] → s.params.entryRegs.r10 = .holds top →
          t.reg .r10 = .holds (top - BitVec.ofNat 64 ((s.cs.length + 1) * s.params.stackSize))) ∧
      (s.params.framePolicy = .freshFrame →
        (s.deepest ≤ s.cs.length → SameMemory s t) ∧
        (s.cs.length < s.deepest → ∀ fp, t.reg .r10 = .holds fp → FreshFrame s t fp) ∧
        (t.reg .r10 = .unwritten → SameMemory s t)) ∧
      (s.params.framePolicy = .none →
        t.cs = ⟨s.pc + 1, none⟩ :: s.cs ∧ (∀ r, t.reg r = s.reg r) ∧ SameMemory s t)

/-- A program-local call faults on a bad target first, then on a full call stack (43_jump.md R249, 60_exceptions.md R385, 60_exceptions.md R389, 60_exceptions.md R392). Rests on the spec's own decisions or the model's: 92_eei_decisions.md D13, D15. -/
def Obligations.CallLocalFaults : Prop :=
  ∀ (s : State) (imm : BitVec 32),
    (legalTarget s.text (s.pc + 1 + imm.toInt) = false →
      exec (.callLocalKJmp imm) s = .fault (.badJumpTarget s.pc (s.pc + 1 + imm.toInt))) ∧
    (legalTarget s.text (s.pc + 1 + imm.toInt) = true → s.params.maxCallDepth ≤ s.cs.length →
      exec (.callLocalKJmp imm) s = .fault (.callDepthExceeded s.pc))

/-- EXIT inside a program-local function completes: it pops the frame and returns to the caller (43_jump.md R224, 43_jump.md R251). Rests on the spec's own decisions or the model's: 92_eei_decisions.md D15; that no byte of memory changes at the return is log entry 12 (DEDUCED); that the frame popped tells the two forms of EXIT apart, in place of FRAME_POLICY, is log entry 16 (DESIGN CHOICE). -/
def Obligations.ExitReturnsToTheCaller : Prop :=
  ∀ (s : State) (f : Frame) (rest : List Frame), s.cs = f :: rest →
    ∃ t, exec .exitKJmp s = .next t ∧ t.pc = f.ret ∧ t.cs = rest ∧
      SameMemory s t ∧ t.status = s.status ∧ t.text = s.text ∧ t.params = s.params ∧ t.env = s.env ∧ t.deepest = s.deepest ∧
      (∀ sv, f.saved = some sv →
        t.reg .r0 = s.reg .r0 ∧ (∀ r ∈ [Reg.r1, .r2, .r3, .r4, .r5], t.reg r = .unwritten) ∧
        t.reg .r6 = sv.r6 ∧ t.reg .r7 = sv.r7 ∧ t.reg .r8 = sv.r8 ∧ t.reg .r9 = sv.r9 ∧ t.reg .r10 = sv.fp) ∧
      (f.saved = none → ∀ r, t.reg r = s.reg r)

/-- EXIT with an empty call stack ends the run with R0 as its result (43_jump.md R251, 70_reset_and_hazards.md R422). Rests on the spec's own decisions or the model's: 92_eei_decisions.md D16. -/
def Obligations.OutermostExitEndsTheRun : Prop :=
  ∀ s : State, s.cs = [] →
    (∀ r, s.reg .r0 = .holds r →
      ∃ t, exec .exitKJmp s = .next t ∧ t.status = .exited r ∧ t.pc = s.pc ∧ t.cs = [] ∧
        (∀ q, t.reg q = s.reg q) ∧ SameMemory s t ∧ t.text = s.text ∧ t.params = s.params ∧ t.env = s.env ∧ t.deepest = s.deepest) ∧
    (s.reg .r0 = .unwritten → exec .exitKJmp s = .fault (.unwrittenRegister s.pc .r0))

/-- Whatever a function does, its EXIT gives the caller back R6 to R10, the stack and the next slot (43_jump.md R224, 43_jump.md R249, 43_jump.md R251, 10_state.md R21). Rests on the spec's own decisions or the model's: 92_eei_decisions.md D15; log entry 16 (DESIGN CHOICE). -/
def Obligations.CalleeSavedAcrossFunction : Prop :=
  ∀ (s t u : State) (imm : BitVec 32), s.params.framePolicy = .freshFrame →
    exec (.callLocalKJmp imm) s = .next t → u.cs = t.cs →
    ∃ v, exec .exitKJmp u = .next v ∧ v.pc = s.pc + 1 ∧ v.cs = s.cs ∧ v.reg .r0 = u.reg .r0 ∧
      ∀ r ∈ [Reg.r6, .r7, .r8, .r9, .r10], v.reg r = s.reg r

/-- CALL of a helper the table lists completes: R0 the result, R1 to R5 unwritten, the rest kept (43_jump.md R223, 43_jump.md R248, 43_jump.md R250, 10_state.md R23). Rests on the spec's own decisions or the model's: 92_eei_decisions.md D14; the form of a known run and the free values are log entry 6 (DESIGN CHOICE). -/
def Obligations.HelperCallCompletes : Prop :=
  ∀ (s : State) (tb : HelperTable) (imm : BitVec 32) (h : Helper) (args : List Word),
    s.params.helper tb imm = some h →
    ([Reg.r1, .r2, .r3, .r4, .r5].take h.nargs.val).map s.reg = args.map RegVal.holds →
    ∃ t ret, exec (match tb with | .static => .callHelperKJmp imm | .btf => .callBtfKJmp imm) s = .next t ∧
      t.reg .r0 = .holds ret ∧ (∀ r ∈ [Reg.r1, .r2, .r3, .r4, .r5], t.reg r = .unwritten) ∧
      (∀ r ∈ [Reg.r6, .r7, .r8, .r9, .r10], t.reg r = s.reg r) ∧ t.pc = s.pc + 1 ∧ SameRest s t ∧
      (∀ a : Word, (∀ sp ∈ s.params.helperMayWrite, sp.holds a.toNat = false) →
        Memory.find t.mem a.toNat = Memory.find s.mem a.toNat ∧ t.byteAt a = s.byteAt a) ∧
      ∀ c, h.known.find? (fun c => decide (c.args = args) && c.sees.all fun w => decide (s.byteAt w.1 = w.2)) = some c →
        ∃ o ∈ c.first :: c.others, ret = o.ret ∧ t.mem = Memory.putAll s.mem
          (o.writes.filter fun w => s.params.helperMayWrite.any fun sp => sp.holds w.1.toNat)

/-- A helper call raises UnknownHelper exactly when the table it selects does not list the id (60_exceptions.md R388, 43_jump.md R223, 43_jump.md R248, 43_jump.md R250). Rests on the spec's own decisions or the model's: 92_eei_decisions.md D14. -/
def Obligations.UnknownHelperFaults : Prop :=
  ∀ (s : State) (imm : BitVec 32),
    (exec (.callHelperKJmp imm) s = .fault (.unknownHelper s.pc imm .static) ↔
      ∀ h, (imm, h) ∉ s.params.helpersStatic) ∧
    (exec (.callBtfKJmp imm) s = .fault (.unknownHelper s.pc imm .btf) ↔
      ∀ h, (imm, h) ∉ s.params.helpersBtf)

/-- The seven loads complete with the number spelled at the address, zero- or sign-extended (20_memory.md R50, 20_memory.md R53, 20_memory.md R57, 45_load_store.md R290, 45_load_store.md R291, 45_load_store.md R292, 45_load_store.md R293, 45_load_store.md R294, 45_load_store.md R295, 45_load_store.md R305, 45_load_store.md R306). Rests on the spec's own decisions or the model's: 92_eei_decisions.md D17, D20. -/
def Obligations.LoadsZeroOrSignExtend : Prop :=
  ∀ (s : State) (dst src : Reg) (offset : BitVec 16) (base : Word), s.reg src = .holds base →
    (s.params.accessOk (effectiveAddr base offset) .b .read = true →
      ∃ v, SpelledAt s (effectiveAddr base offset) 1 v ∧ Completes (.memBLdx dst src offset) s dst v ∧
        Completes (.memsxBLdx dst src offset) s dst (BitVec.ofInt 64 (Int.bmod v.toNat (2 ^ 8)))) ∧
    (s.params.accessOk (effectiveAddr base offset) .h .read = true →
      ∃ v, SpelledAt s (effectiveAddr base offset) 2 v ∧ Completes (.memHLdx dst src offset) s dst v ∧
        Completes (.memsxHLdx dst src offset) s dst (BitVec.ofInt 64 (Int.bmod v.toNat (2 ^ 16)))) ∧
    (s.params.accessOk (effectiveAddr base offset) .w .read = true →
      ∃ v, SpelledAt s (effectiveAddr base offset) 4 v ∧ Completes (.memWLdx dst src offset) s dst v ∧
        Completes (.memsxWLdx dst src offset) s dst (BitVec.ofInt 64 (Int.bmod v.toNat (2 ^ 32)))) ∧
    (s.params.accessOk (effectiveAddr base offset) .dw .read = true →
      ∃ v, SpelledAt s (effectiveAddr base offset) 8 v ∧ Completes (.memDwLdx dst src offset) s dst v)

/-- The four stores of an immediate complete, storing its low bytes at the effective address (20_memory.md R50, 20_memory.md R53, 45_load_store.md R290, 45_load_store.md R291, 45_load_store.md R296, 45_load_store.md R297, 45_load_store.md R298, 45_load_store.md R299). Rests on the spec's own decisions or the model's: 92_eei_decisions.md D17, D20. -/
def Obligations.StoresOfImmediates : Prop :=
  ∀ (s : State) (dst : Reg) (offset : BitVec 16) (imm : BitVec 32) (base : Word), s.reg dst = .holds base →
    (s.params.accessOk (effectiveAddr base offset) .b .write = true →
      Stores (.memBSt dst offset imm) s (effectiveAddr base offset) .b (imm.setWidth 64)) ∧
    (s.params.accessOk (effectiveAddr base offset) .h .write = true →
      Stores (.memHSt dst offset imm) s (effectiveAddr base offset) .h (imm.setWidth 64)) ∧
    (s.params.accessOk (effectiveAddr base offset) .w .write = true →
      Stores (.memWSt dst offset imm) s (effectiveAddr base offset) .w (imm.setWidth 64)) ∧
    (s.params.accessOk (effectiveAddr base offset) .dw .write = true →
      Stores (.memDwSt dst offset imm) s (effectiveAddr base offset) .dw (imm.signExtend 64))

/-- The four stores of a register complete, storing its low bytes at the effective address (20_memory.md R50, 20_memory.md R53, 45_load_store.md R290, 45_load_store.md R291, 45_load_store.md R300, 45_load_store.md R301, 45_load_store.md R302, 45_load_store.md R303). Rests on the spec's own decisions or the model's: 92_eei_decisions.md D17, D20. -/
def Obligations.StoresOfRegisters : Prop :=
  ∀ (s : State) (dst src : Reg) (offset : BitVec 16) (base y : Word), s.reg dst = .holds base → s.reg src = .holds y →
    (s.params.accessOk (effectiveAddr base offset) .b .write = true →
      Stores (.memBStx dst src offset) s (effectiveAddr base offset) .b y) ∧
    (s.params.accessOk (effectiveAddr base offset) .h .write = true →
      Stores (.memHStx dst src offset) s (effectiveAddr base offset) .h y) ∧
    (s.params.accessOk (effectiveAddr base offset) .w .write = true →
      Stores (.memWStx dst src offset) s (effectiveAddr base offset) .w y) ∧
    (s.params.accessOk (effectiveAddr base offset) .dw .write = true →
      Stores (.memDwStx dst src offset) s (effectiveAddr base offset) .dw y)

/-- Atomic ADD, OR, AND and XOR complete, storing the operation of the old number and the register (20_memory.md R58, 46_atomic.md R320, 46_atomic.md R321, 46_atomic.md R323, 46_atomic.md R324, 46_atomic.md R325, 46_atomic.md R328, 46_atomic.md R333, 46_atomic.md R336). Rests on the spec's own decisions or the model's: 92_eei_decisions.md D17, D21. -/
def Obligations.AtomicsWithoutFetch : Prop :=
  ∀ (s : State) (dst src : Reg) (offset : BitVec 16) (base y : Word), s.reg dst = .holds base → s.reg src = .holds y →
    (s.params.accessOk (effectiveAddr base offset) .w .atomic = true →
      ∃ old, SpelledAt s (effectiveAddr base offset) 4 old ∧
        Stores (.atomicWStxAdd dst src offset) s (effectiveAddr base offset) .w (BitVec.ofNat 64 (old.toNat + y.toNat)) ∧
        Stores (.atomicWStxOr dst src offset) s (effectiveAddr base offset) .w (old ||| y) ∧
        Stores (.atomicWStxAnd dst src offset) s (effectiveAddr base offset) .w (old &&& y) ∧
        Stores (.atomicWStxXor dst src offset) s (effectiveAddr base offset) .w (old ^^^ y)) ∧
    (s.params.accessOk (effectiveAddr base offset) .dw .atomic = true →
      ∃ old, SpelledAt s (effectiveAddr base offset) 8 old ∧
        Stores (.atomicDwStxAdd dst src offset) s (effectiveAddr base offset) .dw (BitVec.ofNat 64 (old.toNat + y.toNat)) ∧
        Stores (.atomicDwStxOr dst src offset) s (effectiveAddr base offset) .dw (old ||| y) ∧
        Stores (.atomicDwStxAnd dst src offset) s (effectiveAddr base offset) .dw (old &&& y) ∧
        Stores (.atomicDwStxXor dst src offset) s (effectiveAddr base offset) .dw (old ^^^ y))

/-- Atomics with FETCH, and XCHG, complete: memory updated and the old number put in the source register (20_memory.md R58, 46_atomic.md R320, 46_atomic.md R322, 46_atomic.md R323, 46_atomic.md R326, 46_atomic.md R327, 46_atomic.md R330, 46_atomic.md R335, 46_atomic.md R338, 46_atomic.md R340, 46_atomic.md R341). Rests on the spec's own decisions or the model's: 92_eei_decisions.md D17, D21. -/
def Obligations.AtomicsWithFetchAndExchange : Prop :=
  ∀ (s : State) (dst src : Reg) (offset : BitVec 16) (base y : Word), s.reg dst = .holds base → s.reg src = .holds y →
    (s.params.accessOk (effectiveAddr base offset) .w .atomic = true →
      ∃ old, SpelledAt s (effectiveAddr base offset) 4 old ∧
        Exchanges (.atomicWStxAddFetch dst src offset) s (effectiveAddr base offset) .w
          (BitVec.ofNat 64 (old.toNat + y.toNat)) src old ∧
        Exchanges (.atomicWStxOrFetch dst src offset) s (effectiveAddr base offset) .w
          (old ||| y) src old ∧
        Exchanges (.atomicWStxAndFetch dst src offset) s (effectiveAddr base offset) .w
          (old &&& y) src old ∧
        Exchanges (.atomicWStxXorFetch dst src offset) s (effectiveAddr base offset) .w
          (old ^^^ y) src old ∧
        Exchanges (.atomicWStxXchg dst src offset) s (effectiveAddr base offset) .w y src old) ∧
    (s.params.accessOk (effectiveAddr base offset) .dw .atomic = true →
      ∃ old, SpelledAt s (effectiveAddr base offset) 8 old ∧
        Exchanges (.atomicDwStxAddFetch dst src offset) s (effectiveAddr base offset) .dw
          (BitVec.ofNat 64 (old.toNat + y.toNat)) src old ∧
        Exchanges (.atomicDwStxOrFetch dst src offset) s (effectiveAddr base offset) .dw
          (old ||| y) src old ∧
        Exchanges (.atomicDwStxAndFetch dst src offset) s (effectiveAddr base offset) .dw
          (old &&& y) src old ∧
        Exchanges (.atomicDwStxXorFetch dst src offset) s (effectiveAddr base offset) .dw
          (old ^^^ y) src old ∧
        Exchanges (.atomicDwStxXchg dst src offset) s (effectiveAddr base offset) .dw y src old)

/-- CMPXCHG completes: it stores on a match, stores nothing otherwise, and R0 gets the old number (20_memory.md R58, 46_atomic.md R320, 46_atomic.md R322, 46_atomic.md R323, 46_atomic.md R342, 46_atomic.md R343). Rests on the spec's own decisions or the model's: 92_eei_decisions.md D17, D21. -/
def Obligations.CompareAndExchange : Prop :=
  ∀ (s : State) (dst src : Reg) (offset : BitVec 16) (base y e : Word), s.reg dst = .holds base → s.reg src = .holds y →
    s.reg .r0 = .holds e →
    (s.params.accessOk (effectiveAddr base offset) .w .atomic = true →
      ∃ old, SpelledAt s (effectiveAddr base offset) 4 old ∧
        (old.toNat = e.toNat % 2 ^ 32 →
          Exchanges (.atomicWStxCmpxchg dst src offset) s (effectiveAddr base offset) .w y .r0 old) ∧
        (old.toNat ≠ e.toNat % 2 ^ 32 → Completes (.atomicWStxCmpxchg dst src offset) s .r0 old)) ∧
    (s.params.accessOk (effectiveAddr base offset) .dw .atomic = true →
      ∃ old, SpelledAt s (effectiveAddr base offset) 8 old ∧
        (old.toNat = e.toNat →
          Exchanges (.atomicDwStxCmpxchg dst src offset) s (effectiveAddr base offset) .dw y .r0 old) ∧
        (old.toNat ≠ e.toNat → Completes (.atomicDwStxCmpxchg dst src offset) s .r0 old))

/-- When an access is accepted, and how its address is formed (20_memory.md R54, 20_memory.md R56, 20_memory.md R57). Rests on the spec's own decisions or the model's: 92_eei_decisions.md D18, D19, D20; log entry 8. -/
def Obligations.AccessRule : Prop :=
  ∀ (p : Params) (a : Word) (z : Size) (kind : AccessKind) (offset : BitVec 16),
    (p.accessOk a z kind = true ↔
      a.toNat + z.bytes ≤ 2 ^ 64 ∧
      (a.toNat % z.bytes = 0 ∨ p.alignPolicy = .allow ∧ kind ≠ .atomic) ∧
      ∃ g ∈ p.memAdmit, g.permits kind = true ∧ z.bytes ∈ g.widths ∧ g.base ≤ a.toNat ∧
        a.toNat + z.bytes ≤ g.base + g.size) ∧
    ((effectiveAddr a offset).toNat : Int) = ((a.toNat : Int) + offset.toInt) % 2 ^ 64

/-- A load, store or atomic whose access is not accepted raises MemoryNotAdmitted (60_exceptions.md R387, 60_exceptions.md R392, 20_memory.md R53, 20_memory.md R55). Rests on the spec's own decisions or the model's: 92_eei_decisions.md D18, D19, D30. -/
def Obligations.MemoryNotAdmittedFaults : Prop :=
  ∀ (i : Instr) (s : State) (q : MemRequest) (base : Word), requestOf i = some q →
    (∀ r ∈ readsOf i, ∃ v, s.reg r = .holds v) → s.reg q.base = .holds base →
    s.params.accessOk (effectiveAddr base q.offset) q.size q.kind = false →
    exec i s = .fault (.memoryNotAdmitted s.pc (effectiveAddr base q.offset) q.size q.kind)

/-- The first register an instruction reads that holds no value raises UnwrittenRegister (10_state.md R22, 10_state.md R23, 60_exceptions.md R386, 60_exceptions.md R392). Rests on the spec's own decisions or the model's: 92_eei_decisions.md D3, D30. -/
def Obligations.UnwrittenRegisterFaults : Prop :=
  ∀ (i : Instr) (s : State) (r : Reg) (before after : List Reg), readsOf i = before ++ r :: after →
    (∀ q ∈ before, ∃ v, s.reg q = .holds v) → s.reg r = .unwritten →
    exec i s = .fault (.unwrittenRegister s.pc r)

/-- A narrow load after a wide store to private memory sees the bytes the wide store put there (20_memory.md R50, 20_memory.md R52, 20_memory.md R53, 20_memory.md R63). Rests on the spec's own decisions or the model's: 92_eei_decisions.md D17, D25; R52 is marked derived; the addresses are private because R63 (b) lets the environment change any other byte, log entry 5 (DESIGN CHOICE). -/
def Obligations.NarrowLoadAfterWideStore : Prop :=
  ∀ (s : State) (a v : Word) (wide narrow : Size) (k : Nat), k + narrow.bytes ≤ wide.bytes →
    (∀ j < wide.bytes, s.params.isPrivate (a + BitVec.ofNat 64 j) = true) →
    (s.params.hostEndian = .little →
      ((s.store a wide v).load (a + BitVec.ofNat 64 k) narrow).toNat =
        v.toNat / 2 ^ (8 * k) % 2 ^ (8 * narrow.bytes)) ∧
    (s.params.hostEndian = .big →
      ((s.store a wide v).load (a + BitVec.ofNat 64 k) narrow).toNat =
        v.toNat / 2 ^ (8 * (wide.bytes - k - narrow.bytes)) % 2 ^ (8 * narrow.bytes))

/-- The seven 64-bit immediate instructions complete with the constant or the platform's address (47_imm64.md R350, 47_imm64.md R351, 47_imm64.md R352, 47_imm64.md R353, 47_imm64.md R354, 47_imm64.md R355, 47_imm64.md R356, 47_imm64.md R357). Rests on the spec's own decisions or the model's: 92_eei_decisions.md D22, D23. -/
def Obligations.WideLoadsComplete : Prop :=
  ∀ (s : State) (dst : Reg) (imm nextImm : BitVec 32),
    Completes (.immDwLd0 dst imm nextImm) s dst (BitVec.ofNat 64 (nextImm.toNat * 2 ^ 32 + imm.toNat)) ∧
    (∀ a, s.params.mapByFd.lookup imm = some a → Completes (.immDwLd1 dst imm) s dst a ∧
      ∀ v, s.params.mapVal.lookup a = some v →
        Completes (.immDwLd2 dst imm nextImm) s dst (v + BitVec.ofInt 64 nextImm.toInt)) ∧
    (∀ a, s.params.varAddr.lookup imm = some a → Completes (.immDwLd3 dst imm) s dst a) ∧
    (∀ a, s.params.codeAddr.lookup (s.pc, imm) = some a → Completes (.immDwLd4 dst imm) s dst a) ∧
    (∀ a, s.params.mapByIdx.lookup imm = some a → Completes (.immDwLd5 dst imm) s dst a ∧
      ∀ v, s.params.mapVal.lookup a = some v →
        Completes (.immDwLd6 dst imm nextImm) s dst (v + BitVec.ofInt 64 nextImm.toInt))

/-- A wide load that names a platform object which does not exist raises UnresolvedPlatformRef (60_exceptions.md R390, 47_imm64.md R352, 47_imm64.md R353, 47_imm64.md R354, 47_imm64.md R355, 47_imm64.md R356, 47_imm64.md R357). Rests on the spec's own decisions or the model's: 92_eei_decisions.md D23. -/
def Obligations.UnresolvedPlatformRefFaults : Prop :=
  ∀ (s : State) (dst : Reg) (imm nextImm : BitVec 32),
    (s.params.mapByFd.lookup imm = none →
      exec (.immDwLd1 dst imm) s = .fault (.unresolvedPlatformRef s.pc .mapFd imm)) ∧
    ((∀ m, s.params.mapByFd.lookup imm = some m → s.params.mapVal.lookup m = none) →
      exec (.immDwLd2 dst imm nextImm) s = .fault (.unresolvedPlatformRef s.pc .mapFd imm)) ∧
    (s.params.varAddr.lookup imm = none →
      exec (.immDwLd3 dst imm) s = .fault (.unresolvedPlatformRef s.pc .varId imm)) ∧
    (s.params.codeAddr.lookup (s.pc, imm) = none →
      exec (.immDwLd4 dst imm) s = .fault (.unresolvedPlatformRef s.pc .code imm)) ∧
    (s.params.mapByIdx.lookup imm = none →
      exec (.immDwLd5 dst imm) s = .fault (.unresolvedPlatformRef s.pc .mapIdx imm)) ∧
    ((∀ m, s.params.mapByIdx.lookup imm = some m → s.params.mapVal.lookup m = none) →
      exec (.immDwLd6 dst imm nextImm) s = .fault (.unresolvedPlatformRef s.pc .mapIdx imm))

/-- The six legacy packet instructions stop: refused where packet is supported, illegal where it is not (48_packet.md R365, 48_packet.md R366, 48_packet.md R367, 48_packet.md R368, 48_packet.md R369, 48_packet.md R370, 48_packet.md R371, 60_exceptions.md R391). Rests on the spec's own decisions or the model's: 92_eei_decisions.md D24. -/
def Obligations.PacketInstructionsStop : Prop :=
  ∀ (s : State) (i : Instr) (src : Reg) (imm : BitVec 32),
    i ∈ [.absWLd imm, .absHLd imm, .absBLd imm, .indWLd src imm, .indHLd src imm, .indBLd src imm] →
    (.packet ∈ s.params.groups → exec i s = .refused .packetSemanticsNotInSource) ∧
    (.packet ∉ s.params.groups → exec i s = .fault (.illegalInstruction s.pc (encode i).1 none))

/-- The launch sets the launch values, running or refused by its checks; reset is it with no program (10_state.md R36, 70_reset_and_hazards.md R420, 60_exceptions.md R391). Rests on the spec's own decisions or the model's: 92_eei_decisions.md D27, D31; which accesses touch a code address (1, 2, 4 or 8 bytes, atomics too, whatever the alignment) is log entry 19 (DEDUCED) and that reads are not looked at is log entry 20 (DESIGN CHOICE); the last clause is the model's choice: log entries 1 and 2, and log entry 18 for the recommended parameters. -/
def Obligations.LaunchChecksAndValues : Prop :=
  ∀ (text : List Slot) (p : Params) (mem : Memory),
    ((launch text p mem).pc = p.entryPc ∧ (launch text p mem).regs = p.entryRegs ∧ (launch text p mem).cs = [] ∧
      (launch text p mem).mem = mem ∧ (launch text p mem).text = text ∧ (launch text p mem).params = p) ∧
    ((launch text p mem).status = .running ↔
      .base32 ∈ p.groups ∧ legalTarget text p.entryPc = true ∧
      (∀ c ∈ p.codeAddr, ∀ n ∈ [1, 2, 4, 8], ∀ k < n, k ≤ c.2.toNat →
        p.admits (c.2 - BitVec.ofNat 64 k) n .write = false ∧
        p.admits (c.2 - BitVec.ofNat 64 k) n .atomic = false) ∧
      (∀ h ∈ p.helpersStatic, h.2.returnsToNext = true) ∧ ∀ h ∈ p.helpersBtf, h.2.returnsToNext = true) ∧
    ((launch text p mem).status ≠ .running → ∃ r, (launch text p mem).status = .refused r) ∧
    (text ≠ [] → launch text Params.recommended [] = { State.reset with text := text })

end
end

