-- ==== Sys2Proof/Laws/Arith.lean ====
section
/-!
SUPPORT. Byte order: the bytes of a number in memory order, and the number bytes in memory order spell.
-/
namespace Sys2Proof.Machine

@[simp] theorem lowBytes_length (n : Nat) (v : Word) : (lowBytes n v).length = n := by
  induction n generalizing v with
  | zero => rfl
  | succ n ih => simp [lowBytes, ih]

/-- Byte `k` of the low bytes is bits `8k+7` to `8k`. -/
theorem lowBytes_getElem (n : Nat) (v : Word) (k : Nat) (h : k < (lowBytes n v).length) :
    (lowBytes n v)[k] = v.extractLsb' (8 * k) 8 := by
  induction n generalizing v k with
  | zero => simp at h
  | succ n ih =>
    cases k with
    | zero => simp [lowBytes, BitVec.setWidth_eq_extractLsb']
    | succ k =>
      have hk : k < (lowBytes n (v >>> 8)).length := by simpa using h
      simp only [lowBytes, List.getElem_cons_succ, ih (v >>> 8) k hk]
      apply BitVec.eq_of_getLsbD_eq
      intro i hi
      simp only [BitVec.getLsbD_extractLsb', hi, decide_true, Bool.true_and, BitVec.getLsbD_ushiftRight]
      congr 1; omega

/-- The bytes a store writes are the bytes of the number in memory order (20_memory.md R53). -/
theorem bytesOf_eq_memoryBytes (e : Endian) (n : Nat) (v : Word) : bytesOf e n v = memoryBytes e n v := by
  cases e with
  | little =>
    apply List.ext_getElem
    · simp [bytesOf, memoryBytes]
    · intro k h1 h2
      simp only [bytesOf] at h1
      simp [bytesOf, memoryBytes, lowBytes_getElem n v k h1]
  | big =>
    apply List.ext_getElem
    · simp [bytesOf, memoryBytes]
    · intro k h1 h2
      simp [bytesOf, memoryBytes, lowBytes_getElem]

@[simp] theorem bytesOf_length (e : Endian) (n : Nat) (v : Word) : (bytesOf e n v).length = n := by
  cases e <;> simp [bytesOf]

@[simp] theorem memoryBytes_length (e : Endian) (n : Nat) (v : Word) : (memoryBytes e n v).length = n := by
  simp [memoryBytes]

/-- Byte `k` of the number that bytes spell, least significant first. -/
theorem ofLowBytes_extract (bs : List Byte) (hl : bs.length ≤ 8) (k : Nat) (h : k < bs.length) :
    (ofLowBytes bs).extractLsb' (8 * k) 8 = bs[k] := by
  induction bs generalizing k with
  | nil => simp at h
  | cons b bs ih =>
    simp only [List.length_cons] at hl h
    apply BitVec.eq_of_getLsbD_eq
    intro i hi
    simp only [ofLowBytes, BitVec.getLsbD_extractLsb', hi, decide_true, Bool.true_and, BitVec.getLsbD_or,
      BitVec.getLsbD_shiftLeft, BitVec.getLsbD_setWidth]
    cases k with
    | zero =>
      have : i < 64 := by omega
      simp [hi, this]
    | succ k =>
      have hk := ih (by omega) k (by omega)
      have hb : b.getLsbD (8 * (k + 1) + i) = false := BitVec.getLsbD_of_ge b _ (by omega)
      have h2 : 8 * (k + 1) + i < 64 := by omega
      have h3 : ¬8 * (k + 1) + i < 8 := by omega
      have h4 : 8 * (k + 1) + i - 8 = 8 * k + i := by omega
      simp only [hb, h2, h3, h4, decide_true, decide_false, Bool.true_and, Bool.not_false, Bool.or_false,
        List.getElem_cons_succ, Bool.and_false]
      rw [← hk]
      simp [hi]

/-- The number that `n` bytes spell is below `2 ^ (8 n)`. -/
theorem ofLowBytes_lt (bs : List Byte) : (ofLowBytes bs).toNat < 2 ^ (8 * bs.length) := by
  induction bs with
  | nil => simp [ofLowBytes]
  | cons b bs ih =>
    simp only [ofLowBytes, BitVec.toNat_or, List.length_cons]
    apply Nat.or_lt_two_pow
    · rw [BitVec.toNat_shiftLeft, Nat.shiftLeft_eq]
      refine Nat.lt_of_le_of_lt (Nat.mod_le _ _) ?_
      rw [show 8 * (bs.length + 1) = 8 * bs.length + 8 by ring, Nat.pow_add]
      exact Nat.mul_lt_mul_of_pos_right ih (by norm_num)
    · refine Nat.lt_of_lt_of_le ?_ (Nat.pow_le_pow_right (by norm_num) (by omega : 8 ≤ 8 * (bs.length + 1)))
      rw [BitVec.toNat_setWidth]
      exact Nat.lt_of_le_of_lt (Nat.mod_le _ _) b.isLt

@[simp] theorem bytesAt_length (s : State) (a : Word) (n : Nat) : (s.bytesAt a n).length = n := by
  induction n generalizing a with
  | zero => rfl
  | succ n ih => simp [State.bytesAt, ih]

theorem bytesAt_getElem (s : State) (a : Word) (n k : Nat) (h : k < (s.bytesAt a n).length) :
    (s.bytesAt a n)[k] = s.byteAt (a + BitVec.ofNat 64 k) := by
  induction n generalizing a k with
  | zero => simp [State.bytesAt] at h
  | succ n ih =>
    cases k with
    | zero => simp [State.bytesAt]
    | succ k =>
      have hk : k < (s.bytesAt (a + 1) n).length := by simpa using h
      simp only [State.bytesAt, List.getElem_cons_succ, ih (a + 1) k hk]
      congr 1
      apply BitVec.eq_of_toNat_eq; simp; omega

theorem Size.bytes_le (z : Size) : z.bytes ≤ 8 := by cases z <;> decide

theorem Size.bytes_pos (z : Size) : 0 < z.bytes := by cases z <;> decide

/-- What a load reads is the number spelled at the address (20_memory.md R53). -/
theorem load_spelledAt (s : State) (a : Word) (z : Size) : SpelledAt s a z.bytes (s.load a z) where
  little := by
    intro he k hk
    have hz := Size.bytes_le z
    rw [State.load, he]
    simp only [ofBytes]
    rw [ofLowBytes_extract _ (by simpa using hz) k (by simpa using hk), bytesAt_getElem]
  big := by
    intro he k hk
    have hz := Size.bytes_le z
    rw [State.load, he]
    simp only [ofBytes]
    rw [ofLowBytes_extract _ (by simpa using hz) _ (by simp; omega), List.getElem_reverse, bytesAt_getElem]
    congr 3
    simp; omega
  bound := by
    rw [State.load]
    cases s.params.hostEndian with
    | little => simpa [ofBytes] using ofLowBytes_lt (s.bytesAt a z.bytes)
    | big => simpa [ofBytes] using ofLowBytes_lt (s.bytesAt a z.bytes).reverse

/-- A byte swap reverses the low bytes (00_scope.md R11). -/
theorem bswap_reversed {n : Nat} (h : n ≤ 8) (x : Word) : Reversed n x (bswap n x) where
  bytes := by
    intro k hk
    rw [bswap, ofLowBytes_extract _ (by simpa using h) k (by simpa using hk), List.getElem_reverse,
      lowBytes_getElem]
    simp
  bound := by
    simpa [bswap] using ofLowBytes_lt (lowBytes n x).reverse

end Sys2Proof.Machine
end

