-- ==== Sys2Proof/Laws/Decode.lean ====
section
/-!
SUPPORT. The pieces of the encoding are inverse to each other: register numbers, the fields of a slot on either host,
the fields of a canonical word; and what each form of the decoder answers.
-/
namespace Sys2Proof

@[simp] theorem regOf_num (r : Reg) : regOf r.num = some r := by cases r <;> rfl

theorem regOf_eq_some {n : BitVec 4} {r : Reg} (h : regOf n = some r) : r.num = n := by
  revert n; cases r <;> decide

/-- The numbers 11 to 15 name no register (30_encoding.md R90). -/
theorem regOf_eq_none {n : BitVec 4} : regOf n = none ↔ 11 ≤ n.toNat := by
  revert n; decide

/-- Laying fields out as a host stores them and reading them back gives them again (30_encoding.md R82, R83). -/
@[simp] theorem fields_slot (e : Endian) (f : Fields) : (f.slot e).fields e = f := by
  obtain ⟨op, d, s, o, i⟩ := f
  cases e <;> simp only [Fields.slot, Slot.fields, Fields.mk.injEq, true_and] <;>
    refine ⟨?_, ?_, ?_, ?_⟩ <;>
    · apply BitVec.eq_of_getLsbD_eq
      intro k hk
      interval_cases k <;> (simp only [BitVec.getLsbD_extractLsb', BitVec.getLsbD_append]; simp)

/-- Every slot is the layout of its fields. -/
theorem slot_fields (e : Endian) (x : Slot) : (x.fields e).slot e = x := by
  obtain ⟨a0, a1, a2, a3, a4, a5, a6, a7⟩ := x
  cases e <;> simp only [Fields.slot, Slot.fields, Slot.mk.injEq, true_and] <;>
    refine ⟨?_, ?_, ?_, ?_, ?_, ?_, ?_⟩ <;>
    · apply BitVec.eq_of_getLsbD_eq
      intro k hk
      interval_cases k <;> (simp only [BitVec.getLsbD_extractLsb', BitVec.getLsbD_append]; simp)

/-- Building a canonical word from fields and reading the fields of a word are inverse (30_encoding.md R81). -/
@[simp] theorem ofWord_word (f : Fields) : Fields.ofWord f.word = f := by
  obtain ⟨op, d, s, o, i⟩ := f
  simp only [Fields.ofWord, Fields.word, Fields.mk.injEq]
  refine ⟨?_, ?_, ?_, ?_, ?_⟩ <;>
  · apply BitVec.eq_of_getLsbD_eq
    intro k hk
    interval_cases k <;> (simp only [BitVec.getLsbD_extractLsb', BitVec.getLsbD_append]; simp)

theorem word_ofWord (w : Word) : (Fields.ofWord w).word = w := by
  apply BitVec.eq_of_getLsbD_eq
  intro k hk
  simp only [Fields.ofWord, Fields.word]
  interval_cases k <;> (simp only [BitVec.getLsbD_extractLsb', BitVec.getLsbD_append]; simp)

/-- A mask made of field masks acts on each field (30_encoding.md R81). -/
theorem word_and (f m : Fields) : f.word &&& m.word =
    Fields.word ⟨f.opcode &&& m.opcode, f.dst &&& m.dst, f.src &&& m.src, f.offset &&& m.offset, f.imm &&& m.imm⟩ := by
  apply BitVec.eq_of_getLsbD_eq
  intro k hk
  simp only [Fields.word, BitVec.getLsbD_and, BitVec.getLsbD_append]
  repeat' split
  all_goals simp_all

/-! ### What the forms of the decoder answer -/

theorem unusedZero_ok {z : Bool} {k : Decoded} {i : Instr} (h : unusedZero z k = .ok i) : z = true ∧ k = .ok i := by
  unfold unusedZero at h
  split at h
  · rename_i hz; exact ⟨hz, h⟩
  · cases h

theorem withReg_ok {n : BitVec 4} {k : Reg → Decoded} {i : Instr} (h : withReg n k = .ok i) :
    ∃ r, r.num = n ∧ k r = .ok i := by
  unfold withReg at h
  split at h
  · rename_i r hr; exact ⟨r, regOf_eq_some hr, h⟩
  · cases h

@[simp] theorem unusedZero_true (k : Decoded) : unusedZero true k = k := rfl

@[simp] theorem withReg_num (r : Reg) (k : Reg → Decoded) : withReg r.num k = k r := by
  simp only [withReg, regOf_num]

end Sys2Proof
end

