-- ==== Sys2Proof/Laws/Memory.lean ====
section
/-!
SUPPORT. Memory: a read after a write, and every memory operation keeps the canonical form.
-/
namespace Sys2Proof.Machine

/-! ### Read after write -/

@[simp] theorem Memory.find_put_same (m : Memory) (a : Nat) (b : Byte) : Memory.find (Memory.put m a b) a = some b := by
  induction m with
  | nil => simp [Memory.put, Memory.find]
  | cons c rest ih =>
    obtain ⟨k, v⟩ := c
    by_cases h1 : a < k
    · simp [Memory.put, Memory.find, h1]
    · by_cases h2 : a = k
      · subst h2; simp [Memory.put, Memory.find]
      · have h3 : ¬k = a := fun h => h2 h.symm
        simp [Memory.put, Memory.find, h1, h2, h3, ih]

theorem Memory.find_put_other (m : Memory) {a a' : Nat} (b : Byte) (h : a' ≠ a) :
    Memory.find (Memory.put m a b) a' = Memory.find m a' := by
  induction m with
  | nil => simp [Memory.put, Memory.find, Ne.symm h]
  | cons c rest ih =>
    obtain ⟨k, v⟩ := c
    by_cases h1 : a < k
    · simp [Memory.put, Memory.find, h1, Ne.symm h]
    · by_cases h2 : a = k
      · subst h2; simp [Memory.put, Memory.find, Ne.symm h]
      · simp [Memory.put, Memory.find, h1, h2, ih]

/-- Single stores leave every other address alone. -/
theorem Memory.find_putAll_other (ws : List (Word × Byte)) (m : Memory) {a : Nat}
    (h : ∀ w ∈ ws, w.1.toNat ≠ a) : Memory.find (Memory.putAll m ws) a = Memory.find m a := by
  induction ws generalizing m with
  | nil => rfl
  | cons w ws ih =>
    obtain ⟨x, b⟩ := w
    have h1 : a ≠ x.toNat := fun e => h (x, b) (by simp) e.symm
    rw [Memory.putAll, ih _ fun w hw => h w (by simp [hw]), Memory.find_put_other _ _ h1]

/-- A byte put is found there if every byte put at that address is the same. -/
theorem Memory.find_putAll_same (ws : List (Word × Byte)) (m : Memory) {a : Word} {b : Byte} (h : (a, b) ∈ ws)
    (hu : ∀ w ∈ ws, w.1 = a → w.2 = b) : Memory.find (Memory.putAll m ws) a.toNat = some b := by
  induction ws generalizing m with
  | nil => cases h
  | cons w ws ih =>
    have hu' : ∀ x ∈ ws, x.1 = a → x.2 = b := fun x hx => hu x (List.mem_cons_of_mem _ hx)
    by_cases hr : (a, b) ∈ ws
    · exact ih _ hr hu'
    · have hw : w = (a, b) := by
        rcases List.mem_cons.mp h with h | h
        · exact h.symm
        · exact absurd h hr
      subst hw
      rw [Memory.putAll, Memory.find_putAll_other, Memory.find_put_same]
      intro x hx he
      have hx1 : x.1 = a := BitVec.eq_of_toNat_eq he
      exact hr (by rw [← hx1, ← hu' x hx hx1]; exact hx)

/-- The addresses of a run of bytes from `a + 1` on, counted from `a`. -/
theorem addr_succ (a : Word) (k : Nat) : a + 1 + BitVec.ofNat 64 k = a + BitVec.ofNat 64 (k + 1) := by
  apply BitVec.eq_of_toNat_eq; simp; omega

/-- A run of stores leaves every address outside it alone. -/
theorem Memory.find_putBytes_other (bs : List Byte) (m : Memory) (a b : Word)
    (h : ∀ k < bs.length, b ≠ a + BitVec.ofNat 64 k) :
    Memory.find (Memory.putBytes m a bs) b.toNat = Memory.find m b.toNat := by
  induction bs generalizing m a with
  | nil => rfl
  | cons x bs ih =>
    have h0 : b.toNat ≠ a.toNat := fun e => h 0 (by simp) (by simpa using BitVec.eq_of_toNat_eq e)
    rw [Memory.putBytes, ih, Memory.find_put_other _ _ h0]
    intro k hk
    rw [addr_succ]
    exact h (k + 1) (by simpa using hk)

/-- A run of at most 2^64 stores leaves each of its bytes where it was put. -/
theorem Memory.find_putBytes_same (bs : List Byte) (m : Memory) (a : Word) (hn : bs.length ≤ 2 ^ 64) (k : Nat)
    (h : k < bs.length) :
    Memory.find (Memory.putBytes m a bs) (a + BitVec.ofNat 64 k).toNat = some bs[k] := by
  induction bs generalizing m a k with
  | nil => simp at h
  | cons x bs ih =>
    simp only [List.length_cons] at h hn
    cases k with
    | zero =>
      rw [Memory.putBytes]
      have := Memory.find_putBytes_other bs (Memory.put m a.toNat x) (a + 1) a (fun j hj e => by
        have := congrArg BitVec.toNat e
        simp at this
        have := a.isLt
        omega)
      simpa using this
    | succ k =>
      rw [Memory.putBytes, ← addr_succ, ih _ _ (by omega) k (by omega)]
      rfl

/-! ### The canonical form -/

/-- A canonical memory from a later address is one from an earlier address. -/
theorem Memory.wfFrom_mono {lo lo' : Nat} {m : Memory} (h : lo ≤ lo') (hm : Memory.wfFrom lo' m = true) :
    Memory.wfFrom lo m = true := by
  cases m with
  | nil => rfl
  | cons c rest =>
    obtain ⟨k, v⟩ := c
    simp only [Memory.wfFrom, Bool.and_eq_true, decide_eq_true_eq] at hm ⊢
    exact ⟨⟨by omega, hm.1.2⟩, hm.2⟩

theorem Memory.wfFrom_put {lo a : Nat} {m : Memory} (b : Byte) (hl : lo ≤ a) (ha : a < 2 ^ 64)
    (hm : Memory.wfFrom lo m = true) : Memory.wfFrom lo (Memory.put m a b) = true := by
  induction m generalizing lo with
  | nil => simp [Memory.put, Memory.wfFrom, hl]; omega
  | cons c rest ih =>
    obtain ⟨k, v⟩ := c
    simp only [Memory.wfFrom, Bool.and_eq_true, decide_eq_true_eq] at hm
    obtain ⟨⟨h1, h2⟩, h3⟩ := hm
    by_cases hk : a < k
    · simp only [Memory.put, hk, if_true, Memory.wfFrom, Bool.and_eq_true, decide_eq_true_eq]
      exact ⟨⟨hl, ha⟩, ⟨by omega, h2⟩, h3⟩
    · by_cases he : a = k
      · subst he
        simp only [Memory.put, Nat.lt_irrefl, if_false, if_true, Memory.wfFrom, Bool.and_eq_true,
          decide_eq_true_eq]
        exact ⟨⟨hl, ha⟩, h3⟩
      · simp only [Memory.put, hk, he, if_false, Memory.wfFrom, Bool.and_eq_true, decide_eq_true_eq]
        exact ⟨⟨h1, h2⟩, ih (by omega) h3⟩

theorem Memory.wf_put {m : Memory} (a : Word) (b : Byte) (hm : Memory.wf m = true) :
    Memory.wf (Memory.put m a.toNat b) = true :=
  Memory.wfFrom_put b (Nat.zero_le _) a.isLt hm

theorem Memory.wf_putBytes (bs : List Byte) {m : Memory} (a : Word) (hm : Memory.wf m = true) :
    Memory.wf (Memory.putBytes m a bs) = true := by
  induction bs generalizing m a with
  | nil => exact hm
  | cons x bs ih => exact ih (a + 1) (Memory.wf_put a x hm)

theorem Memory.wf_putAll (ws : List (Word × Byte)) {m : Memory} (hm : Memory.wf m = true) :
    Memory.wf (Memory.putAll m ws) = true := by
  induction ws generalizing m with
  | nil => exact hm
  | cons w ws ih =>
    obtain ⟨x, b⟩ := w
    exact ih (Memory.wf_put x b hm)

/-- A canonical memory stores nothing below its first address. -/
theorem Memory.find_eq_none_of_lt {lo a : Nat} {m : Memory} (hm : Memory.wfFrom lo m = true) (h : a < lo) :
    Memory.find m a = none := by
  induction m generalizing lo with
  | nil => rfl
  | cons c rest ih =>
    obtain ⟨k, v⟩ := c
    simp only [Memory.wfFrom, Bool.and_eq_true, decide_eq_true_eq] at hm
    have hk : ¬k = a := by omega
    simp only [Memory.find, hk, if_false]
    exact ih hm.2 (by omega)

/-- Two canonical memories that store the same bytes are the same data. -/
theorem Memory.eq_of_find {lo : Nat} {m m' : Memory} (hm : Memory.wfFrom lo m = true)
    (hm' : Memory.wfFrom lo m' = true) (h : ∀ a, Memory.find m a = Memory.find m' a) : m = m' := by
  induction m generalizing lo m' with
  | nil =>
    cases m' with
    | nil => rfl
    | cons c' rest' =>
      have := h c'.1
      simp [Memory.find] at this
  | cons c rest ih =>
    obtain ⟨k, v⟩ := c
    cases m' with
    | nil =>
      have := h k
      simp [Memory.find] at this
    | cons c' rest' =>
      obtain ⟨k', v'⟩ := c'
      simp only [Memory.wfFrom, Bool.and_eq_true, decide_eq_true_eq] at hm hm'
      have hk : k = k' := by
        rcases Nat.lt_trichotomy k k' with hlt | heq | hgt
        · have := h k
          have hne : ¬k' = k := by omega
          simp only [Memory.find, if_true, hne, if_false] at this
          rw [Memory.find_eq_none_of_lt hm'.2 (by omega)] at this
          cases this
        · exact heq
        · have := h k'
          have hne : ¬k = k' := by omega
          simp only [Memory.find, if_true, hne, if_false] at this
          rw [Memory.find_eq_none_of_lt hm.2 (by omega)] at this
          cases this
      subst hk
      have hv : v = v' := by
        have := h k
        simpa [Memory.find] using this
      subst hv
      have hrest : rest = rest' := by
        refine ih hm.2 hm'.2 fun a => ?_
        by_cases ha : k = a
        · subst ha
          rw [Memory.find_eq_none_of_lt hm.2 (by omega), Memory.find_eq_none_of_lt hm'.2 (by omega)]
        · have := h a
          simpa [Memory.find, ha] using this
      rw [hrest]

/-- The memory right after reset is canonical. -/
theorem reset_memory_wf : Memory.wf State.reset.mem = true := rfl

end Sys2Proof.Machine
end

