-- ==== Sys2Proof/Laws/State.lean ====
section
/-!
SUPPORT. One lemma for each field and each update of the state and of the register file, so that no proof unfolds a
record update.
-/
namespace Sys2Proof

/-! ### The register file -/

@[simp] theorem Regs.get_set_same (x : Regs) (r : Reg) (v : RegVal) : (x.set r v).get r = v := by
  cases r <;> rfl

theorem Regs.get_set_other (x : Regs) {r q : Reg} (v : RegVal) (h : q ≠ r) : (x.set r v).get q = x.get q := by
  cases r <;> cases q <;> first | rfl | exact absurd rfl h

theorem Regs.get_set (x : Regs) (r q : Reg) (v : RegVal) :
    (x.set r v).get q = if q = r then v else x.get q := by
  split
  · subst q; exact Regs.get_set_same x r v
  · rename_i h; exact Regs.get_set_other x v h

/-- Two register files with the same contents are equal. -/
theorem Regs.ext_get {x y : Regs} (h : ∀ r, x.get r = y.get r) : x = y := by
  have h0 := h .r0; have h1 := h .r1; have h2 := h .r2; have h3 := h .r3; have h4 := h .r4; have h5 := h .r5
  have h6 := h .r6; have h7 := h .r7; have h8 := h .r8; have h9 := h .r9; have h10 := h .r10
  cases x; cases y
  simp only [Regs.get] at *
  subst_vars; rfl

/-- Is the register one that carries call arguments? -/
theorem Regs.get_forgetArgs (x : Regs) (q : Reg) :
    x.forgetArgs.get q = if q ∈ Machine.argRegs then .unwritten else x.get q := by
  cases q <;> rfl

theorem Regs.get_forgetSaved (x : Regs) (q : Reg) :
    x.forgetSaved.get q = if q ∈ [Reg.r6, .r7, .r8, .r9] then .unwritten else x.get q := by
  cases q <;> rfl

@[simp] theorem Regs.get_restore_r6 (x : Regs) (f : Machine.SavedRegs) : (x.restore f).get .r6 = f.r6 := rfl

@[simp] theorem Regs.get_restore_r7 (x : Regs) (f : Machine.SavedRegs) : (x.restore f).get .r7 = f.r7 := rfl

@[simp] theorem Regs.get_restore_r8 (x : Regs) (f : Machine.SavedRegs) : (x.restore f).get .r8 = f.r8 := rfl

@[simp] theorem Regs.get_restore_r9 (x : Regs) (f : Machine.SavedRegs) : (x.restore f).get .r9 = f.r9 := rfl

@[simp] theorem Regs.get_restore_r10 (x : Regs) (f : Machine.SavedRegs) : (x.restore f).get .r10 = f.fp := rfl

theorem Regs.get_restore_low (x : Regs) (f : Machine.SavedRegs) {q : Reg}
    (h : q ∈ [Reg.r0, .r1, .r2, .r3, .r4, .r5]) : (x.restore f).get q = x.get q := by
  cases q <;> first | rfl | simp at h

namespace Machine

/-! ### Updates of the state -/

@[simp] theorem State.setReg_regs (s : State) (r : Reg) (v : Word) : (s.setReg r v).regs = s.regs.set r (.holds v) := rfl
@[simp] theorem State.setReg_pc (s : State) (r : Reg) (v : Word) : (s.setReg r v).pc = s.pc := rfl
@[simp] theorem State.setReg_mem (s : State) (r : Reg) (v : Word) : (s.setReg r v).mem = s.mem := rfl
@[simp] theorem State.setReg_cs (s : State) (r : Reg) (v : Word) : (s.setReg r v).cs = s.cs := rfl
@[simp] theorem State.setReg_deepest (s : State) (r : Reg) (v : Word) : (s.setReg r v).deepest = s.deepest := rfl
@[simp] theorem State.setReg_status (s : State) (r : Reg) (v : Word) : (s.setReg r v).status = s.status := rfl
@[simp] theorem State.setReg_text (s : State) (r : Reg) (v : Word) : (s.setReg r v).text = s.text := rfl
@[simp] theorem State.setReg_params (s : State) (r : Reg) (v : Word) : (s.setReg r v).params = s.params := rfl
@[simp] theorem State.setReg_env (s : State) (r : Reg) (v : Word) : (s.setReg r v).env = s.env := rfl

@[simp] theorem State.advance_regs (s : State) (n : Nat) : (s.advance n).regs = s.regs := rfl
@[simp] theorem State.advance_pc (s : State) (n : Nat) : (s.advance n).pc = s.pc + n := rfl
@[simp] theorem State.advance_mem (s : State) (n : Nat) : (s.advance n).mem = s.mem := rfl
@[simp] theorem State.advance_cs (s : State) (n : Nat) : (s.advance n).cs = s.cs := rfl
@[simp] theorem State.advance_deepest (s : State) (n : Nat) : (s.advance n).deepest = s.deepest := rfl
@[simp] theorem State.advance_status (s : State) (n : Nat) : (s.advance n).status = s.status := rfl
@[simp] theorem State.advance_text (s : State) (n : Nat) : (s.advance n).text = s.text := rfl
@[simp] theorem State.advance_params (s : State) (n : Nat) : (s.advance n).params = s.params := rfl
@[simp] theorem State.advance_env (s : State) (n : Nat) : (s.advance n).env = s.env := rfl

@[simp] theorem State.store_regs (s : State) (a : Word) (z : Size) (v : Word) : (s.store a z v).regs = s.regs := rfl
@[simp] theorem State.store_pc (s : State) (a : Word) (z : Size) (v : Word) : (s.store a z v).pc = s.pc := rfl
@[simp] theorem State.store_mem (s : State) (a : Word) (z : Size) (v : Word) : (s.store a z v).mem = Memory.putBytes s.mem a (bytesOf s.params.hostEndian z.bytes v) := rfl
@[simp] theorem State.store_cs (s : State) (a : Word) (z : Size) (v : Word) : (s.store a z v).cs = s.cs := rfl
@[simp] theorem State.store_deepest (s : State) (a : Word) (z : Size) (v : Word) : (s.store a z v).deepest = s.deepest := rfl
@[simp] theorem State.store_status (s : State) (a : Word) (z : Size) (v : Word) : (s.store a z v).status = s.status := rfl
@[simp] theorem State.store_text (s : State) (a : Word) (z : Size) (v : Word) : (s.store a z v).text = s.text := rfl
@[simp] theorem State.store_params (s : State) (a : Word) (z : Size) (v : Word) : (s.store a z v).params = s.params := rfl
@[simp] theorem State.store_env (s : State) (a : Word) (z : Size) (v : Word) : (s.store a z v).env = s.env := rfl

@[simp] theorem State.placeAtPc_regs (s : State) (p : Slot × Slot) : (s.placeAtPc p).regs = s.regs := rfl
@[simp] theorem State.placeAtPc_pc (s : State) (p : Slot × Slot) : (s.placeAtPc p).pc = s.pc := rfl
@[simp] theorem State.placeAtPc_mem (s : State) (p : Slot × Slot) : (s.placeAtPc p).mem = s.mem := rfl
@[simp] theorem State.placeAtPc_cs (s : State) (p : Slot × Slot) : (s.placeAtPc p).cs = s.cs := rfl
@[simp] theorem State.placeAtPc_deepest (s : State) (p : Slot × Slot) : (s.placeAtPc p).deepest = s.deepest := rfl
@[simp] theorem State.placeAtPc_status (s : State) (p : Slot × Slot) : (s.placeAtPc p).status = .running := rfl
@[simp] theorem State.placeAtPc_text (s : State) (p : Slot × Slot) : (s.placeAtPc p).text = placeSlot (placeSlot s.text s.pc p.1) (s.pc + 1) p.2 := rfl
@[simp] theorem State.placeAtPc_params (s : State) (p : Slot × Slot) : (s.placeAtPc p).params = s.params := rfl
@[simp] theorem State.placeAtPc_env (s : State) (p : Slot × Slot) : (s.placeAtPc p).env = s.env := rfl

@[simp] theorem afterHelper_regs (s : State) (o : HelperOutcome) : (afterHelper s o).regs = (s.regs.set .r0 (.holds o.ret)).forgetArgs := rfl
@[simp] theorem afterHelper_pc (s : State) (o : HelperOutcome) : (afterHelper s o).pc = s.pc + 1 := rfl
@[simp] theorem afterHelper_mem (s : State) (o : HelperOutcome) : (afterHelper s o).mem = Memory.putAll s.mem (helperStores s.params o.writes) := rfl
@[simp] theorem afterHelper_cs (s : State) (o : HelperOutcome) : (afterHelper s o).cs = s.cs := rfl
@[simp] theorem afterHelper_deepest (s : State) (o : HelperOutcome) : (afterHelper s o).deepest = s.deepest := rfl
@[simp] theorem afterHelper_status (s : State) (o : HelperOutcome) : (afterHelper s o).status = s.status := rfl
@[simp] theorem afterHelper_text (s : State) (o : HelperOutcome) : (afterHelper s o).text = s.text := rfl
@[simp] theorem afterHelper_params (s : State) (o : HelperOutcome) : (afterHelper s o).params = s.params := rfl
@[simp] theorem afterHelper_env (s : State) (o : HelperOutcome) : (afterHelper s o).env = s.env := rfl

@[simp] theorem enterFunction_pc (s : State) (n : Nat) : (enterFunction s n).pc = n := by
  simp only [enterFunction]; split <;> rfl
@[simp] theorem enterFunction_deepest (s : State) (n : Nat) :
    (enterFunction s n).deepest = max s.deepest (s.cs.length + 1) := by
  simp only [enterFunction]; split <;> rfl
@[simp] theorem enterFunction_status (s : State) (n : Nat) : (enterFunction s n).status = s.status := by
  simp only [enterFunction]; split <;> rfl
@[simp] theorem enterFunction_text (s : State) (n : Nat) : (enterFunction s n).text = s.text := by
  simp only [enterFunction]; split <;> rfl
@[simp] theorem enterFunction_params (s : State) (n : Nat) : (enterFunction s n).params = s.params := by
  simp only [enterFunction]; split <;> rfl
@[simp] theorem enterFunction_env (s : State) (n : Nat) : (enterFunction s n).env = s.env := by
  simp only [enterFunction]; split <;> rfl

@[simp] theorem leaveFunction_pc (s : State) (f : Frame) (rest : List Frame) :
    (leaveFunction s f rest).pc = f.ret := by
  simp only [leaveFunction]; split <;> rfl
@[simp] theorem leaveFunction_mem (s : State) (f : Frame) (rest : List Frame) :
    (leaveFunction s f rest).mem = s.mem := by
  simp only [leaveFunction]; split <;> rfl
@[simp] theorem leaveFunction_cs (s : State) (f : Frame) (rest : List Frame) :
    (leaveFunction s f rest).cs = rest := by
  simp only [leaveFunction]; split <;> rfl
@[simp] theorem leaveFunction_deepest (s : State) (f : Frame) (rest : List Frame) :
    (leaveFunction s f rest).deepest = s.deepest := by
  simp only [leaveFunction]; split <;> rfl
@[simp] theorem leaveFunction_status (s : State) (f : Frame) (rest : List Frame) :
    (leaveFunction s f rest).status = s.status := by
  simp only [leaveFunction]; split <;> rfl
@[simp] theorem leaveFunction_text (s : State) (f : Frame) (rest : List Frame) :
    (leaveFunction s f rest).text = s.text := by
  simp only [leaveFunction]; split <;> rfl
@[simp] theorem leaveFunction_params (s : State) (f : Frame) (rest : List Frame) :
    (leaveFunction s f rest).params = s.params := by
  simp only [leaveFunction]; split <;> rfl
@[simp] theorem leaveFunction_env (s : State) (f : Frame) (rest : List Frame) :
    (leaveFunction s f rest).env = s.env := by
  simp only [leaveFunction]; split <;> rfl

@[simp] theorem launch_regs (text : List Slot) (p : Params) (m : Memory) : (launch text p m).regs = p.entryRegs := rfl
@[simp] theorem launch_pc (text : List Slot) (p : Params) (m : Memory) : (launch text p m).pc = p.entryPc := rfl
@[simp] theorem launch_mem (text : List Slot) (p : Params) (m : Memory) : (launch text p m).mem = m := rfl
@[simp] theorem launch_cs (text : List Slot) (p : Params) (m : Memory) : (launch text p m).cs = [] := rfl
@[simp] theorem launch_deepest (text : List Slot) (p : Params) (m : Memory) : (launch text p m).deepest = 0 := rfl
@[simp] theorem launch_text (text : List Slot) (p : Params) (m : Memory) : (launch text p m).text = text := rfl
@[simp] theorem launch_params (text : List Slot) (p : Params) (m : Memory) : (launch text p m).params = p := rfl
@[simp] theorem launch_env (text : List Slot) (p : Params) (m : Memory) : (launch text p m).env = 0 := rfl

theorem launch_status_of_accepted {text : List Slot} {p : Params} (m : Memory) (h : launchRefusal text p = none) :
    (launch text p m).status = .running := by
  simp only [launch, h]

/-! ### What a register holds after an update -/

@[simp] theorem State.reg_setReg_same (s : State) (r : Reg) (v : Word) : (s.setReg r v).reg r = .holds v :=
  Regs.get_set_same s.regs r (.holds v)

theorem State.reg_setReg_other (s : State) {r q : Reg} (v : Word) (h : q ≠ r) : (s.setReg r v).reg q = s.reg q :=
  Regs.get_set_other s.regs (.holds v) h

@[simp] theorem State.reg_advance (s : State) (n : Nat) (r : Reg) : (s.advance n).reg r = s.reg r := rfl

@[simp] theorem State.reg_store (s : State) (a : Word) (z : Size) (v : Word) (r : Reg) :
    (s.store a z v).reg r = s.reg r := rfl

theorem State.reg_congr {s t : State} (h : t.regs = s.regs) (r : Reg) : t.reg r = s.reg r := by
  simp only [State.reg, h]

/-! ### What a byte reads as after an update -/

/-- A byte read depends on the private spans, the bytes stored and the environment alone. -/
theorem State.byteAt_congr {s t : State} (hm : t.mem = s.mem) (hp : t.params = s.params) (hd : t.env = s.env)
    (a : Word) : t.byteAt a = s.byteAt a := by
  simp only [State.byteAt, hm, hp, hd]

@[simp] theorem State.byteAt_setReg (s : State) (r : Reg) (v a : Word) : (s.setReg r v).byteAt a = s.byteAt a := rfl

@[simp] theorem State.byteAt_advance (s : State) (n : Nat) (a : Word) : (s.advance n).byteAt a = s.byteAt a := rfl

/-- A private byte reads as stored. -/
theorem State.byteAt_of_private {s : State} {a : Word} {b : Byte} (hp : s.params.isPrivate a = true)
    (hf : Memory.find s.mem a.toNat = some b) : s.byteAt a = b := by
  simp only [State.byteAt, hp, hf, if_true, Option.getD_some]

/-- A byte reads the same in two states that agree on what is stored at its address. -/
theorem State.byteAt_of_find {s t : State} {a : Word} (hp : t.params = s.params) (hd : t.env = s.env)
    (hf : Memory.find t.mem a.toNat = Memory.find s.mem a.toNat) : t.byteAt a = s.byteAt a := by
  simp only [State.byteAt, hp, hd, hf]

end Machine

end Sys2Proof
end

