-- ==== Sys2Proof/Laws/Ops.lean ====
section
/-!
SUPPORT. One lemma for each shared operation that says all it can do: how it runs where its operands are readable, and
what holds if it answers a next state.
-/
namespace Sys2Proof.Machine

variable {s t : State}

@[simp] theorem raise_ne_next (f : Fault) : raise f ≠ .next t := by
  intro h; cases h

@[simp] theorem refuse_ne_next (r : Refusal) : refuse r ≠ .next t := by
  intro h; cases h

/-! ### Reading registers -/

theorem readReg_holds {r : Reg} {v : Word} (h : s.reg r = .holds v) (k : Word → Res) : readReg s r k = k v := by
  simp only [readReg, h]

theorem readReg_unwritten {r : Reg} (h : s.reg r = .unwritten) (k : Word → Res) :
    readReg s r k = .fault (.unwrittenRegister s.pc r) := by
  simp only [readReg, h, raise]

theorem readReg_next {r : Reg} {k : Word → Res} (h : readReg s r k = .next t) :
    ∃ v, s.reg r = .holds v ∧ k v = .next t := by
  unfold readReg at h
  split at h
  · rename_i v hv; exact ⟨v, hv, h⟩
  · exact absurd h (raise_ne_next _)

theorem readRegs_next {rs : List Reg} {k : List Word → Res} (h : readRegs s rs k = .next t) :
    ∃ vs, vs.length = rs.length ∧ k vs = .next t := by
  induction rs generalizing k with
  | nil => exact ⟨[], rfl, h⟩
  | cons r rs ih =>
    obtain ⟨v, _, h1⟩ := readReg_next h
    obtain ⟨vs, hl, h2⟩ := ih h1
    exact ⟨v :: vs, by simp [hl], h2⟩

theorem readRegs_holds {rs : List Reg} {vs : List Word} (h : rs.map s.reg = vs.map RegVal.holds)
    (k : List Word → Res) : readRegs s rs k = k vs := by
  induction rs generalizing vs k with
  | nil =>
    cases vs with
    | nil => rfl
    | cons v vs => simp at h
  | cons r rs ih =>
    cases vs with
    | nil => simp at h
    | cons v vs =>
      simp only [List.map_cons, List.cons.injEq] at h
      rw [readRegs, readReg_holds h.1, ih h.2]

@[simp] theorem readOperand32_k (imm : BitVec 32) (k : BitVec 32 → Res) : readOperand32 s (.k imm) k = k imm := rfl

@[simp] theorem readOperand64_k (imm : BitVec 32) (k : Word → Res) :
    readOperand64 s (.k imm) k = k (imm.signExtend 64) := rfl

theorem readOperand32_x {r : Reg} {v : Word} (h : s.reg r = .holds v) (k : BitVec 32 → Res) :
    readOperand32 s (.x r) k = k (v.setWidth 32) := readReg_holds h _

theorem readOperand64_x {r : Reg} {v : Word} (h : s.reg r = .holds v) (k : Word → Res) :
    readOperand64 s (.x r) k = k v := readReg_holds h _

theorem readOperand32_next {o : Operand} {k : BitVec 32 → Res} (h : readOperand32 s o k = .next t) :
    ∃ b, k b = .next t := by
  cases o with
  | k imm => exact ⟨imm, h⟩
  | x r => obtain ⟨v, _, h⟩ := readReg_next h; exact ⟨_, h⟩

theorem readOperand64_next {o : Operand} {k : Word → Res} (h : readOperand64 s o k = .next t) :
    ∃ b, k b = .next t := by
  cases o with
  | k imm => exact ⟨_, h⟩
  | x r => obtain ⟨v, _, h⟩ := readReg_next h; exact ⟨_, h⟩

/-! ### Writing a register -/

/-- Writing a register and advancing changes that register and the pc alone. -/
theorem wroteReg_setReg (s : State) (r : Reg) (v : Word) (n : Nat) : WroteReg s ((s.setReg r v).advance n) r v n where
  value := by simp
  others := fun q h => by simp [State.reg_setReg_other s v h]
  pc := rfl
  memory := ⟨fun _ => rfl, fun _ => rfl⟩
  rest := ⟨rfl, rfl, rfl, rfl, rfl, rfl⟩

theorem writeAndAdvance_next {r : Reg} {v : Word} (h : writeAndAdvance s r v = .next t) : WroteReg s t r v 1 := by
  cases h; exact wroteReg_setReg s r v 1

theorem alu32_next {f : BitVec 32 → BitVec 32 → BitVec 32} {dst : Reg} {o : Operand}
    (h : alu32 f dst o s = .next t) : ∃ r : BitVec 32, WroteReg s t dst (r.setWidth 64) 1 := by
  obtain ⟨a, _, h⟩ := readReg_next h
  obtain ⟨b, h⟩ := readOperand32_next h
  exact ⟨_, writeAndAdvance_next h⟩

theorem alu64_next {f : Word → Word → Word} {dst : Reg} {o : Operand} (h : alu64 f dst o s = .next t) :
    ∃ v, WroteReg s t dst v 1 := by
  obtain ⟨a, _, h⟩ := readReg_next h
  obtain ⟨b, h⟩ := readOperand64_next h
  exact ⟨_, writeAndAdvance_next h⟩

theorem move32_next {f : BitVec 32 → BitVec 32} {dst : Reg} {o : Operand} (h : move32 f dst o s = .next t) :
    ∃ r : BitVec 32, WroteReg s t dst (r.setWidth 64) 1 := by
  obtain ⟨b, h⟩ := readOperand32_next h
  exact ⟨_, writeAndAdvance_next h⟩

theorem move64_next {f : Word → Word} {dst : Reg} {o : Operand} (h : move64 f dst o s = .next t) :
    ∃ v, WroteReg s t dst v 1 := by
  obtain ⟨b, h⟩ := readOperand64_next h
  exact ⟨_, writeAndAdvance_next h⟩

theorem unary_next {f : Word → Word} {dst : Reg} (h : unary f dst s = .next t) : ∃ v, WroteReg s t dst v 1 := by
  obtain ⟨a, _, h⟩ := readReg_next h
  exact ⟨_, writeAndAdvance_next h⟩

theorem alu32_run {f : BitVec 32 → BitVec 32 → BitVec 32} {dst : Reg} {x : Word} (h : s.reg dst = .holds x) :
    (∀ imm : BitVec 32, alu32 f dst (.k imm) s = writeAndAdvance s dst ((f (x.setWidth 32) imm).setWidth 64)) ∧
    ∀ src y, s.reg src = .holds y →
      alu32 f dst (.x src) s = writeAndAdvance s dst ((f (x.setWidth 32) (y.setWidth 32)).setWidth 64) := by
  constructor
  · intro imm; rw [alu32, readReg_holds h]; rfl
  · intro src y hy; rw [alu32, readReg_holds h, readOperand32_x hy]

theorem alu64_run {f : Word → Word → Word} {dst : Reg} {x : Word} (h : s.reg dst = .holds x) :
    (∀ imm : BitVec 32, alu64 f dst (.k imm) s = writeAndAdvance s dst (f x (imm.signExtend 64))) ∧
    ∀ src y, s.reg src = .holds y → alu64 f dst (.x src) s = writeAndAdvance s dst (f x y) := by
  constructor
  · intro imm; rw [alu64, readReg_holds h]; rfl
  · intro src y hy; rw [alu64, readReg_holds h, readOperand64_x hy]

theorem unary_run {f : Word → Word} {dst : Reg} {x : Word} (h : s.reg dst = .holds x) :
    unary f dst s = writeAndAdvance s dst (f x) := by
  rw [unary, readReg_holds h]

/-! ### Jumps -/

/-- A jump changes the pc alone. -/
theorem movedTo_pc (s : State) (n : Nat) : MovedTo s { s with pc := n } n where
  pc := rfl
  regs := fun _ => rfl
  memory := ⟨fun _ => rfl, fun _ => rfl⟩
  rest := ⟨rfl, rfl, rfl, rfl, rfl, rfl⟩

theorem jump_next {d : Int} (h : jump s d = .next t) :
    legalTarget s.text (jumpTarget s d) = true ∧ MovedTo s t (jumpTarget s d).toNat := by
  unfold jump at h
  split at h
  · rename_i hl; cases h; exact ⟨hl, movedTo_pc s _⟩
  · exact absurd h (raise_ne_next _)

theorem jumpIf_next {c : Bool} {offset : BitVec 16} (h : jumpIf s c offset = .next t) :
    (c = true ∧ legalTarget s.text (jumpTarget s offset.toInt) = true ∧
        MovedTo s t (jumpTarget s offset.toInt).toNat) ∨
      c = false ∧ MovedTo s t (s.pc + 1) := by
  unfold jumpIf at h
  split at h
  · rename_i hc; exact .inl ⟨hc, jump_next h⟩
  · rename_i hc; cases h; exact .inr ⟨by simpa using hc, movedTo_pc s _⟩

theorem condJump64_next {c : Word → Word → Bool} {dst : Reg} {o : Operand} {offset : BitVec 16}
    (h : condJump64 c dst o offset s = .next t) :
    (legalTarget s.text (jumpTarget s offset.toInt) = true ∧ MovedTo s t (jumpTarget s offset.toInt).toNat) ∨
      MovedTo s t (s.pc + 1) := by
  obtain ⟨a, _, h⟩ := readReg_next h
  obtain ⟨b, h⟩ := readOperand64_next h
  rcases jumpIf_next h with ⟨_, h⟩ | ⟨_, h⟩
  · exact .inl h
  · exact .inr h

theorem condJump32_next {c : BitVec 32 → BitVec 32 → Bool} {dst : Reg} {o : Operand} {offset : BitVec 16}
    (h : condJump32 c dst o offset s = .next t) :
    (legalTarget s.text (jumpTarget s offset.toInt) = true ∧ MovedTo s t (jumpTarget s offset.toInt).toNat) ∨
      MovedTo s t (s.pc + 1) := by
  obtain ⟨a, _, h⟩ := readReg_next h
  obtain ⟨b, h⟩ := readOperand32_next h
  rcases jumpIf_next h with ⟨_, h⟩ | ⟨_, h⟩
  · exact .inl h
  · exact .inr h

theorem condJump64_run {c : Word → Word → Bool} {dst : Reg} {x : Word} (h : s.reg dst = .holds x)
    (offset : BitVec 16) :
    (∀ imm : BitVec 32, condJump64 c dst (.k imm) offset s = jumpIf s (c x (imm.signExtend 64)) offset) ∧
    ∀ src y, s.reg src = .holds y → condJump64 c dst (.x src) offset s = jumpIf s (c x y) offset := by
  constructor
  · intro imm; rw [condJump64, readReg_holds h]; rfl
  · intro src y hy; rw [condJump64, readReg_holds h, readOperand64_x hy]

theorem condJump32_run {c : BitVec 32 → BitVec 32 → Bool} {dst : Reg} {x : Word} (h : s.reg dst = .holds x)
    (offset : BitVec 16) :
    (∀ imm : BitVec 32, condJump32 c dst (.k imm) offset s = jumpIf s (c (x.setWidth 32) imm) offset) ∧
    ∀ src y, s.reg src = .holds y →
      condJump32 c dst (.x src) offset s = jumpIf s (c (x.setWidth 32) (y.setWidth 32)) offset := by
  constructor
  · intro imm; rw [condJump32, readReg_holds h]; rfl
  · intro src y hy; rw [condJump32, readReg_holds h, readOperand32_x hy]

/-! ### Instruction starts -/

theorem startsAt_lt {b : Bool} {text : List Slot} {n : Nat} (h : startsAt b text n = true) : n < text.length := by
  induction text generalizing b n with
  | nil => simp [startsAt] at h
  | cons x rest ih =>
    cases n with
    | zero => simp
    | succ n => simpa using ih h

/-- A legal target is an instruction start inside the text. -/
theorem legalTarget_spec {text : List Slot} {d : Int} (h : legalTarget text d = true) :
    0 ≤ d ∧ startsAt false text d.toNat = true ∧ d.toNat < text.length := by
  simp only [legalTarget, Bool.and_eq_true, decide_eq_true_eq] at h
  exact ⟨h.1, h.2, startsAt_lt h.2⟩

/-! ### Memory accesses -/

theorem checkAccess_next {a : Word} {z : Size} {kind : AccessKind} {k : Res}
    (h : checkAccess s a z kind k = .next t) : s.params.accessOk a z kind = true ∧ k = .next t := by
  unfold checkAccess at h
  split at h
  · rename_i hc; exact ⟨hc, h⟩
  · exact absurd h (raise_ne_next _)

theorem checkAccess_ok {a : Word} {z : Size} {kind : AccessKind} (h : s.params.accessOk a z kind = true) (k : Res) :
    checkAccess s a z kind k = k := by
  simp only [checkAccess, h, if_true]

theorem checkAccess_bad {a : Word} {z : Size} {kind : AccessKind} (h : s.params.accessOk a z kind = false) (k : Res) :
    checkAccess s a z kind k = .fault (.memoryNotAdmitted s.pc a z kind) := by
  simp [checkAccess, h, raise]

/-- A store changes the bytes it stores and nothing else. -/
theorem storedAt_store (s : State) (a : Word) (z : Size) (v : Word) :
    StoredAt s (s.store a z v) a (memoryBytes s.params.hostEndian z.bytes v) := by
  have hs : ∀ (k : Nat) (h : k < (memoryBytes s.params.hostEndian z.bytes v).length),
      Memory.find (s.store a z v).mem (a + BitVec.ofNat 64 k).toNat =
        some (memoryBytes s.params.hostEndian z.bytes v)[k] := by
    intro k hk
    rw [State.store_mem, bytesOf_eq_memoryBytes]
    have := Size.bytes_le z
    exact Memory.find_putBytes_same _ _ _ (by simp; omega) k hk
  have ho : ∀ b : Word, (∀ k < (memoryBytes s.params.hostEndian z.bytes v).length, b ≠ a + BitVec.ofNat 64 k) →
      Memory.find (s.store a z v).mem b.toNat = Memory.find s.mem b.toNat := by
    intro b hb
    rw [State.store_mem, bytesOf_eq_memoryBytes]
    exact Memory.find_putBytes_other _ _ _ _ hb
  exact ⟨hs, fun k hk hp => State.byteAt_of_private hp (hs k hk), ho,
    fun b hb => State.byteAt_of_find rfl rfl (ho b hb)⟩

theorem memRead_next {a : Word} {z : Size} {k : Word → Res} (h : memRead s a z k = .next t) :
    s.params.accessOk a z .read = true ∧ k (s.load a z) = .next t := checkAccess_next h

theorem memWrite_next {a : Word} {z : Size} {v : Word} {k : State → Res} (h : memWrite s a z v k = .next t) :
    s.params.accessOk a z .write = true ∧ k (s.store a z v) = .next t := checkAccess_next h

theorem atomicRmw_next {a : Word} {z : Size} {f : Word → Option Word} {k : Word → State → Res}
    (h : atomicRmw s a z f k = .next t) :
    s.params.accessOk a z .atomic = true ∧
      ((∃ v, f (s.load a z) = some v ∧ k (s.load a z) (s.store a z v) = .next t) ∨
        f (s.load a z) = none ∧ k (s.load a z) s = .next t) := by
  obtain ⟨hc, h⟩ := checkAccess_next h
  refine ⟨hc, ?_⟩
  split at h
  · rename_i v hv; exact .inl ⟨v, hv, h⟩
  · rename_i hv; exact .inr ⟨hv, h⟩

theorem loadReg_next {z : Size} {ext : Word → Word} {dst src : Reg} {offset : BitVec 16}
    (h : loadReg z ext dst src offset s = .next t) :
    ∃ base, s.reg src = .holds base ∧ s.params.accessOk (effectiveAddr base offset) z .read = true ∧
      WroteReg s t dst (ext (s.load (effectiveAddr base offset) z)) 1 := by
  obtain ⟨base, hb, h⟩ := readReg_next h
  obtain ⟨hc, h⟩ := memRead_next h
  exact ⟨base, hb, hc, writeAndAdvance_next h⟩

theorem storeImm_next {z : Size} {dst : Reg} {offset : BitVec 16} {imm : BitVec 32}
    (h : storeImm z dst offset imm s = .next t) :
    ∃ base, s.reg dst = .holds base ∧ s.params.accessOk (effectiveAddr base offset) z .write = true ∧
      t = (s.store (effectiveAddr base offset) z (imm.signExtend 64)).advance 1 := by
  obtain ⟨base, hb, h⟩ := readReg_next h
  obtain ⟨hc, h⟩ := memWrite_next h
  cases h; exact ⟨base, hb, hc, rfl⟩

theorem storeReg_next {z : Size} {dst src : Reg} {offset : BitVec 16} (h : storeReg z dst src offset s = .next t) :
    ∃ base v, s.reg dst = .holds base ∧ s.reg src = .holds v ∧
      s.params.accessOk (effectiveAddr base offset) z .write = true ∧
      t = (s.store (effectiveAddr base offset) z v).advance 1 := by
  obtain ⟨base, hb, h⟩ := readReg_next h
  obtain ⟨v, hv, h⟩ := readReg_next h
  obtain ⟨hc, h⟩ := memWrite_next h
  cases h; exact ⟨base, v, hb, hv, hc, rfl⟩

theorem atomic_next {z : Size} {f : Word → Word → Word} {dst src : Reg} {offset : BitVec 16}
    (h : atomic z f dst src offset s = .next t) :
    ∃ base v, s.reg dst = .holds base ∧ s.reg src = .holds v ∧
      s.params.accessOk (effectiveAddr base offset) z .atomic = true ∧
      t = (s.store (effectiveAddr base offset) z (f (s.load (effectiveAddr base offset) z) v)).advance 1 := by
  obtain ⟨base, hb, h⟩ := readReg_next h
  obtain ⟨v, hv, h⟩ := readReg_next h
  obtain ⟨hc, ⟨w, hw, h⟩ | ⟨hw, h⟩⟩ := atomicRmw_next h
  · cases hw; cases h; exact ⟨base, v, hb, hv, hc, rfl⟩
  · cases hw

theorem atomicFetch_next {z : Size} {f : Word → Word → Word} {dst src : Reg} {offset : BitVec 16}
    (h : atomicFetch z f dst src offset s = .next t) :
    ∃ base v, s.reg dst = .holds base ∧ s.reg src = .holds v ∧
      s.params.accessOk (effectiveAddr base offset) z .atomic = true ∧
      t = ((s.store (effectiveAddr base offset) z (f (s.load (effectiveAddr base offset) z) v)).setReg src
        (s.load (effectiveAddr base offset) z)).advance 1 := by
  obtain ⟨base, hb, h⟩ := readReg_next h
  obtain ⟨v, hv, h⟩ := readReg_next h
  obtain ⟨hc, ⟨w, hw, h⟩ | ⟨hw, h⟩⟩ := atomicRmw_next h
  · cases hw; cases h; exact ⟨base, v, hb, hv, hc, rfl⟩
  · cases hw

theorem atomicCmpxchg_next {z : Size} {low : Word → Word} {dst src : Reg} {offset : BitVec 16}
    (h : atomicCmpxchg z low dst src offset s = .next t) :
    ∃ base v e, s.reg dst = .holds base ∧ s.reg src = .holds v ∧ s.reg .r0 = .holds e ∧
      s.params.accessOk (effectiveAddr base offset) z .atomic = true ∧
      ((s.load (effectiveAddr base offset) z = low e ∧
          t = ((s.store (effectiveAddr base offset) z v).setReg .r0
            (s.load (effectiveAddr base offset) z)).advance 1) ∨
        s.load (effectiveAddr base offset) z ≠ low e ∧
          t = (s.setReg .r0 (s.load (effectiveAddr base offset) z)).advance 1) := by
  obtain ⟨base, hb, h⟩ := readReg_next h
  obtain ⟨v, hv, h⟩ := readReg_next h
  obtain ⟨e, he, h⟩ := readReg_next h
  obtain ⟨hc, ⟨w, hw, h⟩ | ⟨hw, h⟩⟩ := atomicRmw_next h
  · split at hw
    · rename_i hm; cases hw; cases h; exact ⟨base, v, e, hb, hv, he, hc, .inl ⟨hm, rfl⟩⟩
    · cases hw
  · split at hw
    · cases hw
    · rename_i hm; cases h; exact ⟨base, v, e, hb, hv, he, hc, .inr ⟨hm, rfl⟩⟩

/-! ### Calls, exit, wide loads, packet access -/

theorem callHelper_next {tb : HelperTable} {id : BitVec 32} (h : callHelper s tb id = .next t) :
    ∃ hp args, s.params.helper tb id = some hp ∧ t = afterHelper s (helperRun s tb id hp args) := by
  unfold callHelper at h
  split at h
  · exact absurd h (raise_ne_next _)
  · rename_i hp hh
    obtain ⟨args, _, h⟩ := readRegs_next h
    cases h; exact ⟨hp, args, hh, rfl⟩

/-- The outcome picked is one of those listed, whatever the number. -/
theorem pickOutcome_mem (o : HelperOutcome) (os : List HelperOutcome) (n : Nat) : pickOutcome o os n ∈ o :: os := by
  induction os generalizing o n with
  | nil => simp [pickOutcome]
  | cons p rest ih =>
    cases n with
    | zero => simp [pickOutcome]
    | succ n => exact List.mem_cons_of_mem _ (ih p n)

/-- Where a case applies, the run has one of the outcomes it lists (43_jump.md R223 (2)). -/
theorem helperRun_known {tb : HelperTable} {id : BitVec 32} {hp : Helper} {args : List Word} {c : HelperCase}
    (h : hp.known.find? (fun c => caseApplies s c args) = some c) :
    helperRun s tb id hp args ∈ c.first :: c.others := by
  simp only [helperRun, h]
  exact pickOutcome_mem _ _ _

/-- A helper writes only where the platform lets helpers write (43_jump.md R223 (2)). -/
theorem helperStores_mayWrite {p : Params} {ws : List (Word × Byte)} {w : Word × Byte} (h : w ∈ helperStores p ws) :
    (p.helperMayWrite.any fun sp => sp.holds w.1.toNat) = true :=
  (List.mem_filter.mp h).2

/-- The addresses a frame's contents are put at are those below the frame pointer, each with its free value. -/
theorem mem_frameContents {e : Nat} {fp : Word} {n : Nat} {w : Word × Byte} :
    w ∈ frameContents e fp n ↔ ∃ k < n, w = (fp - BitVec.ofNat 64 (k + 1), Config.frameByte e (fp - BitVec.ofNat 64 (k + 1))) := by
  induction n generalizing fp with
  | zero => simp [frameContents]
  | succ n ih =>
    have hs : ∀ k : Nat, fp - 1 - BitVec.ofNat 64 (k + 1) = fp - BitVec.ofNat 64 (k + 1 + 1) := by
      intro k
      rw [BitVec.ofNat_add (k + 1) 1]
      bv_omega
    simp only [frameContents, List.mem_cons, ih, hs]
    constructor
    · rintro (rfl | ⟨k, hk, rfl⟩)
      · exact ⟨0, by omega, rfl⟩
      · exact ⟨k + 1, by omega, rfl⟩
    · rintro ⟨k, hk, rfl⟩
      cases k with
      | zero => exact .inl rfl
      | succ k => exact .inr ⟨k, by omega, rfl⟩

/-- What a call leaves of the memory. Where its frame was used before, the frame holds free values and every other byte
is the same (43_jump.md R251); at the first use, without a frame, or where no frame is known, every byte is the same
(20_memory.md R63 (a)). -/
theorem enterFunction_memory (s : State) (t : Nat) :
    (s.params.framePolicy = .freshFrame → s.cs.length < s.deepest →
      ∀ fp, s.params.calleeFpAt (s.cs.length + 1) = .holds fp → FreshFrame s (enterFunction s t) fp) ∧
    (s.params.framePolicy = .none ∨ s.deepest ≤ s.cs.length ∨ s.params.calleeFpAt (s.cs.length + 1) = .unwritten →
      SameMemory s (enterFunction s t)) := by
  have hq := enterFunction_params s t
  have he := enterFunction_env s t
  constructor
  · intro hp hd fp hf
    have hm : (enterFunction s t).mem = Memory.putAll s.mem (frameContents s.env fp s.params.stackSize) := by
      simp only [enterFunction, hp, hf, frameMemory, if_pos hd]
    have hi : ∀ k < s.params.stackSize,
        Memory.find (enterFunction s t).mem (fp - BitVec.ofNat 64 (k + 1)).toNat =
          some (Config.frameByte s.env (fp - BitVec.ofNat 64 (k + 1))) := by
      intro k hk
      rw [hm]
      refine Memory.find_putAll_same _ s.mem (mem_frameContents.mpr ⟨k, hk, rfl⟩) ?_
      intro w hw ha
      obtain ⟨j, _, rfl⟩ := mem_frameContents.mp hw
      exact congrArg (Config.frameByte s.env) ha
    have ho : ∀ a : Word, (∀ k < s.params.stackSize, a ≠ fp - BitVec.ofNat 64 (k + 1)) →
        Memory.find (enterFunction s t).mem a.toNat = Memory.find s.mem a.toNat := by
      intro a ha
      rw [hm]
      refine Memory.find_putAll_other _ s.mem ?_
      intro w hw he
      obtain ⟨k, hk, rfl⟩ := mem_frameContents.mp hw
      exact ha k hk (BitVec.eq_of_toNat_eq he.symm)
    exact ⟨hi, fun k hk h => State.byteAt_of_private (hq ▸ h) (hi k hk), ho,
      fun a ha => State.byteAt_of_find hq he (ho a ha)⟩
  · intro h
    have hm : (enterFunction s t).mem = s.mem := by
      rcases h with h | h | h
      · simp only [enterFunction, h]
      · have hd : ¬s.cs.length < s.deepest := by omega
        simp only [enterFunction, frameMemory, if_neg hd]
        split <;> first | rfl | (split <;> rfl)
      · simp only [enterFunction, h, frameMemory]; split <;> rfl
    exact ⟨fun a => by rw [hm], fun a => State.byteAt_congr hm hq he a⟩

theorem callLocal_next {d : Int} (h : callLocal s d = .next t) :
    legalTarget s.text (jumpTarget s d) = true ∧ s.cs.length < s.params.maxCallDepth ∧
      t = enterFunction s (jumpTarget s d).toNat := by
  unfold callLocal at h
  split at h
  · rename_i hl
    split at h
    · rename_i hd; cases h; exact ⟨hl, hd, rfl⟩
    · exact absurd h (raise_ne_next _)
  · exact absurd h (raise_ne_next _)

theorem exit_next (h : exit s = .next t) :
    (s.cs = [] ∧ ∃ r, s.reg .r0 = .holds r ∧ t = { s with status := .exited r }) ∨
      ∃ f rest, s.cs = f :: rest ∧ t = leaveFunction s f rest := by
  unfold exit at h
  split at h
  · rename_i hc
    obtain ⟨r, hr, h⟩ := readReg_next h
    cases h; exact .inl ⟨hc, r, hr, rfl⟩
  · rename_i f rest hc
    cases h; exact .inr ⟨f, rest, hc, rfl⟩

theorem writeWide_next {dst : Reg} {v : Word} (h : writeWide s dst v = .next t) : WroteReg s t dst v 2 := by
  cases h; exact wroteReg_setReg s dst v 2

theorem writeResolved_next {dst : Reg} {kind : PlatformRef} {imm : BitVec 32} {v : Option Word}
    (h : writeResolved s dst kind imm v = .next t) : ∃ a, v = some a ∧ WroteReg s t dst a 2 := by
  unfold writeResolved at h
  split at h
  · rename_i a; exact ⟨a, rfl, writeWide_next h⟩
  · exact absurd h (raise_ne_next _)

theorem packet_ne_next {i : Instr} : packet i s ≠ .next t := by
  unfold packet
  split
  · exact refuse_ne_next _
  · exact raise_ne_next _

/-! ### Steps -/

theorem tick_next {o : Res} (h : tick o = .next t) : ∃ u, o = .next u ∧ t = { u with env := Config.envNext u.env u.mem } := by
  cases o with
  | next u => cases h; exact ⟨u, rfl, rfl⟩
  | fault f => cases h
  | refused r => cases h

/-- A step that answers a next state was taken by a running machine and ran the instruction it fetched. -/
theorem step_next (h : step s = .next t) :
    s.status = .running ∧ ∃ i u, fetch s = .ok i ∧ exec i s = .next u ∧ t = { u with env := Config.envNext u.env u.mem } := by
  unfold step at h
  split at h
  · rename_i hr
    split at h
    · rename_i i hf
      obtain ⟨u, hu, ht⟩ := tick_next h
      exact ⟨hr, i, u, hf, hu, ht⟩
    · exact absurd h (raise_ne_next _)
  · exact absurd h (refuse_ne_next _)
  · exact absurd h (raise_ne_next _)
  · exact absurd h (refuse_ne_next _)

/-- A fetch that answers an instruction decoded it at the pc, and it is one the machine executes. -/
theorem fetch_ok {i : Instr} (h : fetch s = .ok i) :
    ∃ slot, s.text[s.pc]? = some slot ∧
      decodeSlots s.params.hostEndian slot s.text[s.pc + 1]? = .ok i ∧ i.wellFormed s.params = true := by
  unfold fetch at h
  split at h
  · cases h
  · rename_i slot hs
    split at h
    · rename_i j hd
      split at h
      · rename_i hw; cases h; exact ⟨slot, hs, hd, hw⟩
      · cases h
    · cases h
    · cases h

end Sys2Proof.Machine
end

