-- ==== Sys2Proof/Laws/PerInstr.lean ====
section
/-!
SUPPORT. Statements about every instruction, one lemma for each constructor. `MatchesRow`: the words of an instruction
match its row of spec/opcode_table.json, whose numbers stand here as the table prints them.
-/
namespace Sys2Proof.Laws

/-- The `mask` and `match` of a row, and `mask2` and `match2` of a wide one. -/
structure Row where
  mask : Word
  bits : Word
  second : Option (Word × Word)

/-- The row of each instruction in spec/opcode_table.json. -/
def rowOf : Instr → Row
  | .addKAlu _ _ => ⟨0x00000000fffff0ff, 0x0000000000000004, none⟩
  | .addXAlu _ _ => ⟨0xffffffffffff00ff, 0x000000000000000c, none⟩
  | .subKAlu _ _ => ⟨0x00000000fffff0ff, 0x0000000000000014, none⟩
  | .subXAlu _ _ => ⟨0xffffffffffff00ff, 0x000000000000001c, none⟩
  | .mulKAlu _ _ => ⟨0x00000000fffff0ff, 0x0000000000000024, none⟩
  | .mulXAlu _ _ => ⟨0xffffffffffff00ff, 0x000000000000002c, none⟩
  | .divKAlu _ _ => ⟨0x00000000fffff0ff, 0x0000000000000034, none⟩
  | .divXAlu _ _ => ⟨0xffffffffffff00ff, 0x000000000000003c, none⟩
  | .sdivKAlu _ _ => ⟨0x00000000fffff0ff, 0x0000000000010034, none⟩
  | .sdivXAlu _ _ => ⟨0xffffffffffff00ff, 0x000000000001003c, none⟩
  | .orKAlu _ _ => ⟨0x00000000fffff0ff, 0x0000000000000044, none⟩
  | .orXAlu _ _ => ⟨0xffffffffffff00ff, 0x000000000000004c, none⟩
  | .andKAlu _ _ => ⟨0x00000000fffff0ff, 0x0000000000000054, none⟩
  | .andXAlu _ _ => ⟨0xffffffffffff00ff, 0x000000000000005c, none⟩
  | .lshKAlu _ _ => ⟨0x00000000fffff0ff, 0x0000000000000064, none⟩
  | .lshXAlu _ _ => ⟨0xffffffffffff00ff, 0x000000000000006c, none⟩
  | .rshKAlu _ _ => ⟨0x00000000fffff0ff, 0x0000000000000074, none⟩
  | .rshXAlu _ _ => ⟨0xffffffffffff00ff, 0x000000000000007c, none⟩
  | .negKAlu _ => ⟨0xfffffffffffff0ff, 0x0000000000000084, none⟩
  | .modKAlu _ _ => ⟨0x00000000fffff0ff, 0x0000000000000094, none⟩
  | .modXAlu _ _ => ⟨0xffffffffffff00ff, 0x000000000000009c, none⟩
  | .smodKAlu _ _ => ⟨0x00000000fffff0ff, 0x0000000000010094, none⟩
  | .smodXAlu _ _ => ⟨0xffffffffffff00ff, 0x000000000001009c, none⟩
  | .xorKAlu _ _ => ⟨0x00000000fffff0ff, 0x00000000000000a4, none⟩
  | .xorXAlu _ _ => ⟨0xffffffffffff00ff, 0x00000000000000ac, none⟩
  | .movKAlu _ _ => ⟨0x00000000fffff0ff, 0x00000000000000b4, none⟩
  | .movXAlu _ _ => ⟨0xffffffffffff00ff, 0x00000000000000bc, none⟩
  | .movsx8XAlu _ _ => ⟨0xffffffffffff00ff, 0x00000000000800bc, none⟩
  | .movsx16XAlu _ _ => ⟨0xffffffffffff00ff, 0x00000000001000bc, none⟩
  | .arshKAlu _ _ => ⟨0x00000000fffff0ff, 0x00000000000000c4, none⟩
  | .arshXAlu _ _ => ⟨0xffffffffffff00ff, 0x00000000000000cc, none⟩
  | .addKAlu64 _ _ => ⟨0x00000000fffff0ff, 0x0000000000000007, none⟩
  | .addXAlu64 _ _ => ⟨0xffffffffffff00ff, 0x000000000000000f, none⟩
  | .subKAlu64 _ _ => ⟨0x00000000fffff0ff, 0x0000000000000017, none⟩
  | .subXAlu64 _ _ => ⟨0xffffffffffff00ff, 0x000000000000001f, none⟩
  | .mulKAlu64 _ _ => ⟨0x00000000fffff0ff, 0x0000000000000027, none⟩
  | .mulXAlu64 _ _ => ⟨0xffffffffffff00ff, 0x000000000000002f, none⟩
  | .divKAlu64 _ _ => ⟨0x00000000fffff0ff, 0x0000000000000037, none⟩
  | .divXAlu64 _ _ => ⟨0xffffffffffff00ff, 0x000000000000003f, none⟩
  | .sdivKAlu64 _ _ => ⟨0x00000000fffff0ff, 0x0000000000010037, none⟩
  | .sdivXAlu64 _ _ => ⟨0xffffffffffff00ff, 0x000000000001003f, none⟩
  | .orKAlu64 _ _ => ⟨0x00000000fffff0ff, 0x0000000000000047, none⟩
  | .orXAlu64 _ _ => ⟨0xffffffffffff00ff, 0x000000000000004f, none⟩
  | .andKAlu64 _ _ => ⟨0x00000000fffff0ff, 0x0000000000000057, none⟩
  | .andXAlu64 _ _ => ⟨0xffffffffffff00ff, 0x000000000000005f, none⟩
  | .lshKAlu64 _ _ => ⟨0x00000000fffff0ff, 0x0000000000000067, none⟩
  | .lshXAlu64 _ _ => ⟨0xffffffffffff00ff, 0x000000000000006f, none⟩
  | .rshKAlu64 _ _ => ⟨0x00000000fffff0ff, 0x0000000000000077, none⟩
  | .rshXAlu64 _ _ => ⟨0xffffffffffff00ff, 0x000000000000007f, none⟩
  | .negKAlu64 _ => ⟨0xfffffffffffff0ff, 0x0000000000000087, none⟩
  | .modKAlu64 _ _ => ⟨0x00000000fffff0ff, 0x0000000000000097, none⟩
  | .modXAlu64 _ _ => ⟨0xffffffffffff00ff, 0x000000000000009f, none⟩
  | .smodKAlu64 _ _ => ⟨0x00000000fffff0ff, 0x0000000000010097, none⟩
  | .smodXAlu64 _ _ => ⟨0xffffffffffff00ff, 0x000000000001009f, none⟩
  | .xorKAlu64 _ _ => ⟨0x00000000fffff0ff, 0x00000000000000a7, none⟩
  | .xorXAlu64 _ _ => ⟨0xffffffffffff00ff, 0x00000000000000af, none⟩
  | .movKAlu64 _ _ => ⟨0x00000000fffff0ff, 0x00000000000000b7, none⟩
  | .movXAlu64 _ _ => ⟨0xffffffffffff00ff, 0x00000000000000bf, none⟩
  | .movsx8XAlu64 _ _ => ⟨0xffffffffffff00ff, 0x00000000000800bf, none⟩
  | .movsx16XAlu64 _ _ => ⟨0xffffffffffff00ff, 0x00000000001000bf, none⟩
  | .movsx32XAlu64 _ _ => ⟨0xffffffffffff00ff, 0x00000000002000bf, none⟩
  | .arshKAlu64 _ _ => ⟨0x00000000fffff0ff, 0x00000000000000c7, none⟩
  | .arshXAlu64 _ _ => ⟨0xffffffffffff00ff, 0x00000000000000cf, none⟩
  | .endToLeAlu16 _ => ⟨0xfffffffffffff0ff, 0x00000010000000d4, none⟩
  | .endToLeAlu32 _ => ⟨0xfffffffffffff0ff, 0x00000020000000d4, none⟩
  | .endToLeAlu64 _ => ⟨0xfffffffffffff0ff, 0x00000040000000d4, none⟩
  | .endToBeAlu16 _ => ⟨0xfffffffffffff0ff, 0x00000010000000dc, none⟩
  | .endToBeAlu32 _ => ⟨0xfffffffffffff0ff, 0x00000020000000dc, none⟩
  | .endToBeAlu64 _ => ⟨0xfffffffffffff0ff, 0x00000040000000dc, none⟩
  | .endAlu64Swap16 _ => ⟨0xfffffffffffff0ff, 0x00000010000000d7, none⟩
  | .endAlu64Swap32 _ => ⟨0xfffffffffffff0ff, 0x00000020000000d7, none⟩
  | .endAlu64Swap64 _ => ⟨0xfffffffffffff0ff, 0x00000040000000d7, none⟩
  | .jaKJmp _ => ⟨0xffffffff0000ffff, 0x0000000000000005, none⟩
  | .jeqKJmp _ _ _ => ⟨0x000000000000f0ff, 0x0000000000000015, none⟩
  | .jeqXJmp _ _ _ => ⟨0xffffffff000000ff, 0x000000000000001d, none⟩
  | .jgtKJmp _ _ _ => ⟨0x000000000000f0ff, 0x0000000000000025, none⟩
  | .jgtXJmp _ _ _ => ⟨0xffffffff000000ff, 0x000000000000002d, none⟩
  | .jgeKJmp _ _ _ => ⟨0x000000000000f0ff, 0x0000000000000035, none⟩
  | .jgeXJmp _ _ _ => ⟨0xffffffff000000ff, 0x000000000000003d, none⟩
  | .jsetKJmp _ _ _ => ⟨0x000000000000f0ff, 0x0000000000000045, none⟩
  | .jsetXJmp _ _ _ => ⟨0xffffffff000000ff, 0x000000000000004d, none⟩
  | .jneKJmp _ _ _ => ⟨0x000000000000f0ff, 0x0000000000000055, none⟩
  | .jneXJmp _ _ _ => ⟨0xffffffff000000ff, 0x000000000000005d, none⟩
  | .jsgtKJmp _ _ _ => ⟨0x000000000000f0ff, 0x0000000000000065, none⟩
  | .jsgtXJmp _ _ _ => ⟨0xffffffff000000ff, 0x000000000000006d, none⟩
  | .jsgeKJmp _ _ _ => ⟨0x000000000000f0ff, 0x0000000000000075, none⟩
  | .jsgeXJmp _ _ _ => ⟨0xffffffff000000ff, 0x000000000000007d, none⟩
  | .jltKJmp _ _ _ => ⟨0x000000000000f0ff, 0x00000000000000a5, none⟩
  | .jltXJmp _ _ _ => ⟨0xffffffff000000ff, 0x00000000000000ad, none⟩
  | .jleKJmp _ _ _ => ⟨0x000000000000f0ff, 0x00000000000000b5, none⟩
  | .jleXJmp _ _ _ => ⟨0xffffffff000000ff, 0x00000000000000bd, none⟩
  | .jsltKJmp _ _ _ => ⟨0x000000000000f0ff, 0x00000000000000c5, none⟩
  | .jsltXJmp _ _ _ => ⟨0xffffffff000000ff, 0x00000000000000cd, none⟩
  | .jsleKJmp _ _ _ => ⟨0x000000000000f0ff, 0x00000000000000d5, none⟩
  | .jsleXJmp _ _ _ => ⟨0xffffffff000000ff, 0x00000000000000dd, none⟩
  | .callHelperKJmp _ => ⟨0x00000000ffffffff, 0x0000000000000085, none⟩
  | .callLocalKJmp _ => ⟨0x00000000ffffffff, 0x0000000000001085, none⟩
  | .callBtfKJmp _ => ⟨0x00000000ffffffff, 0x0000000000002085, none⟩
  | .exitKJmp => ⟨0xffffffffffffffff, 0x0000000000000095, none⟩
  | .jaKJmp32 _ => ⟨0x00000000ffffffff, 0x0000000000000006, none⟩
  | .jeqKJmp32 _ _ _ => ⟨0x000000000000f0ff, 0x0000000000000016, none⟩
  | .jeqXJmp32 _ _ _ => ⟨0xffffffff000000ff, 0x000000000000001e, none⟩
  | .jgtKJmp32 _ _ _ => ⟨0x000000000000f0ff, 0x0000000000000026, none⟩
  | .jgtXJmp32 _ _ _ => ⟨0xffffffff000000ff, 0x000000000000002e, none⟩
  | .jgeKJmp32 _ _ _ => ⟨0x000000000000f0ff, 0x0000000000000036, none⟩
  | .jgeXJmp32 _ _ _ => ⟨0xffffffff000000ff, 0x000000000000003e, none⟩
  | .jsetKJmp32 _ _ _ => ⟨0x000000000000f0ff, 0x0000000000000046, none⟩
  | .jsetXJmp32 _ _ _ => ⟨0xffffffff000000ff, 0x000000000000004e, none⟩
  | .jneKJmp32 _ _ _ => ⟨0x000000000000f0ff, 0x0000000000000056, none⟩
  | .jneXJmp32 _ _ _ => ⟨0xffffffff000000ff, 0x000000000000005e, none⟩
  | .jsgtKJmp32 _ _ _ => ⟨0x000000000000f0ff, 0x0000000000000066, none⟩
  | .jsgtXJmp32 _ _ _ => ⟨0xffffffff000000ff, 0x000000000000006e, none⟩
  | .jsgeKJmp32 _ _ _ => ⟨0x000000000000f0ff, 0x0000000000000076, none⟩
  | .jsgeXJmp32 _ _ _ => ⟨0xffffffff000000ff, 0x000000000000007e, none⟩
  | .jltKJmp32 _ _ _ => ⟨0x000000000000f0ff, 0x00000000000000a6, none⟩
  | .jltXJmp32 _ _ _ => ⟨0xffffffff000000ff, 0x00000000000000ae, none⟩
  | .jleKJmp32 _ _ _ => ⟨0x000000000000f0ff, 0x00000000000000b6, none⟩
  | .jleXJmp32 _ _ _ => ⟨0xffffffff000000ff, 0x00000000000000be, none⟩
  | .jsltKJmp32 _ _ _ => ⟨0x000000000000f0ff, 0x00000000000000c6, none⟩
  | .jsltXJmp32 _ _ _ => ⟨0xffffffff000000ff, 0x00000000000000ce, none⟩
  | .jsleKJmp32 _ _ _ => ⟨0x000000000000f0ff, 0x00000000000000d6, none⟩
  | .jsleXJmp32 _ _ _ => ⟨0xffffffff000000ff, 0x00000000000000de, none⟩
  | .memWLdx _ _ _ => ⟨0xffffffff000000ff, 0x0000000000000061, none⟩
  | .memHLdx _ _ _ => ⟨0xffffffff000000ff, 0x0000000000000069, none⟩
  | .memBLdx _ _ _ => ⟨0xffffffff000000ff, 0x0000000000000071, none⟩
  | .memDwLdx _ _ _ => ⟨0xffffffff000000ff, 0x0000000000000079, none⟩
  | .memWSt _ _ _ => ⟨0x000000000000f0ff, 0x0000000000000062, none⟩
  | .memHSt _ _ _ => ⟨0x000000000000f0ff, 0x000000000000006a, none⟩
  | .memBSt _ _ _ => ⟨0x000000000000f0ff, 0x0000000000000072, none⟩
  | .memDwSt _ _ _ => ⟨0x000000000000f0ff, 0x000000000000007a, none⟩
  | .memWStx _ _ _ => ⟨0xffffffff000000ff, 0x0000000000000063, none⟩
  | .memHStx _ _ _ => ⟨0xffffffff000000ff, 0x000000000000006b, none⟩
  | .memBStx _ _ _ => ⟨0xffffffff000000ff, 0x0000000000000073, none⟩
  | .memDwStx _ _ _ => ⟨0xffffffff000000ff, 0x000000000000007b, none⟩
  | .memsxWLdx _ _ _ => ⟨0xffffffff000000ff, 0x0000000000000081, none⟩
  | .memsxHLdx _ _ _ => ⟨0xffffffff000000ff, 0x0000000000000089, none⟩
  | .memsxBLdx _ _ _ => ⟨0xffffffff000000ff, 0x0000000000000091, none⟩
  | .atomicWStxAdd _ _ _ => ⟨0xffffffff000000ff, 0x00000000000000c3, none⟩
  | .atomicDwStxAdd _ _ _ => ⟨0xffffffff000000ff, 0x00000000000000db, none⟩
  | .atomicWStxAddFetch _ _ _ => ⟨0xffffffff000000ff, 0x00000001000000c3, none⟩
  | .atomicDwStxAddFetch _ _ _ => ⟨0xffffffff000000ff, 0x00000001000000db, none⟩
  | .atomicWStxOr _ _ _ => ⟨0xffffffff000000ff, 0x00000040000000c3, none⟩
  | .atomicDwStxOr _ _ _ => ⟨0xffffffff000000ff, 0x00000040000000db, none⟩
  | .atomicWStxOrFetch _ _ _ => ⟨0xffffffff000000ff, 0x00000041000000c3, none⟩
  | .atomicDwStxOrFetch _ _ _ => ⟨0xffffffff000000ff, 0x00000041000000db, none⟩
  | .atomicWStxAnd _ _ _ => ⟨0xffffffff000000ff, 0x00000050000000c3, none⟩
  | .atomicDwStxAnd _ _ _ => ⟨0xffffffff000000ff, 0x00000050000000db, none⟩
  | .atomicWStxAndFetch _ _ _ => ⟨0xffffffff000000ff, 0x00000051000000c3, none⟩
  | .atomicDwStxAndFetch _ _ _ => ⟨0xffffffff000000ff, 0x00000051000000db, none⟩
  | .atomicWStxXor _ _ _ => ⟨0xffffffff000000ff, 0x000000a0000000c3, none⟩
  | .atomicDwStxXor _ _ _ => ⟨0xffffffff000000ff, 0x000000a0000000db, none⟩
  | .atomicWStxXorFetch _ _ _ => ⟨0xffffffff000000ff, 0x000000a1000000c3, none⟩
  | .atomicDwStxXorFetch _ _ _ => ⟨0xffffffff000000ff, 0x000000a1000000db, none⟩
  | .atomicWStxXchg _ _ _ => ⟨0xffffffff000000ff, 0x000000e1000000c3, none⟩
  | .atomicDwStxXchg _ _ _ => ⟨0xffffffff000000ff, 0x000000e1000000db, none⟩
  | .atomicWStxCmpxchg _ _ _ => ⟨0xffffffff000000ff, 0x000000f1000000c3, none⟩
  | .atomicDwStxCmpxchg _ _ _ => ⟨0xffffffff000000ff, 0x000000f1000000db, none⟩
  | .immDwLd0 _ _ _ => ⟨0x00000000fffff0ff, 0x0000000000000018, some (0x00000000ffffffff, 0x0000000000000000)⟩
  | .immDwLd1 _ _ => ⟨0x00000000fffff0ff, 0x0000000000001018, some (0xffffffffffffffff, 0x0000000000000000)⟩
  | .immDwLd2 _ _ _ => ⟨0x00000000fffff0ff, 0x0000000000002018, some (0x00000000ffffffff, 0x0000000000000000)⟩
  | .immDwLd3 _ _ => ⟨0x00000000fffff0ff, 0x0000000000003018, some (0xffffffffffffffff, 0x0000000000000000)⟩
  | .immDwLd4 _ _ => ⟨0x00000000fffff0ff, 0x0000000000004018, some (0xffffffffffffffff, 0x0000000000000000)⟩
  | .immDwLd5 _ _ => ⟨0x00000000fffff0ff, 0x0000000000005018, some (0xffffffffffffffff, 0x0000000000000000)⟩
  | .immDwLd6 _ _ _ => ⟨0x00000000fffff0ff, 0x0000000000006018, some (0x00000000ffffffff, 0x0000000000000000)⟩
  | .absWLd _ => ⟨0x00000000ffffffff, 0x0000000000000020, none⟩
  | .absHLd _ => ⟨0x00000000ffffffff, 0x0000000000000028, none⟩
  | .absBLd _ => ⟨0x00000000ffffffff, 0x0000000000000030, none⟩
  | .indWLd _ _ => ⟨0x00000000ffff0fff, 0x0000000000000040, none⟩
  | .indHLd _ _ => ⟨0x00000000ffff0fff, 0x0000000000000048, none⟩
  | .indBLd _ _ => ⟨0x00000000ffff0fff, 0x0000000000000050, none⟩

/-- The encoder's words match the row: the first under `mask`, and there is a second one, matching under `mask2`,
exactly where the row is wide. -/
def MatchesRow.Statement (i : Instr) : Prop :=
  (encode i).1 &&& (rowOf i).mask = (rowOf i).bits ∧
    (encode i).2.map (fun w => w &&& ((rowOf i).second.getD (0, 0)).1) = (rowOf i).second.map Prod.snd

/-- A word of fields matches under a mask of fields if each field does. -/
theorem word_matches {f m g : Fields} {mask bits : Word} (hm : mask = m.word) (hb : bits = g.word)
    (ho : f.opcode &&& m.opcode = g.opcode) (hd : f.dst &&& m.dst = g.dst) (hs : f.src &&& m.src = g.src)
    (hf : f.offset &&& m.offset = g.offset) (hi : f.imm &&& m.imm = g.imm) : f.word &&& mask = bits := by
  rw [hm, hb, word_and, ho, hd, hs, hf, hi]

theorem matchesRow_basic {i : Instr} {f : Fields} (hs : (rowOf i).second = none)
    (hn : i.secondFields = none) (hf : i.fields = f) (h : f.word &&& (rowOf i).mask = (rowOf i).bits) :
    MatchesRow.Statement i :=
  ⟨by rw [encode, hf]; exact h, by rw [hs, encode, hn]; rfl⟩

theorem matchesRow_wide {i : Instr} {f f2 : Fields} {mask2 bits2 : Word}
    (hs : (rowOf i).second = some (mask2, bits2)) (hn : i.secondFields = some f2)
    (hf : i.fields = f) (h : f.word &&& (rowOf i).mask = (rowOf i).bits) (h2 : f2.word &&& mask2 = bits2) :
    MatchesRow.Statement i :=
  ⟨by rw [encode, hf]; exact h, by simp only [hs, encode, hn, Option.map_some, Option.getD_some, h2]⟩

theorem MatchesRow.addKAlu (dst : Reg) (imm : BitVec 32) : MatchesRow.Statement (.addKAlu dst imm) :=
  matchesRow_basic rfl rfl rfl
    (word_matches (m := ⟨BitVec.allOnes 8, 0, BitVec.allOnes 4, BitVec.allOnes 16, 0⟩) (g := ⟨0x4, 0x0, 0x0, 0x0, 0x0⟩) rfl rfl BitVec.and_allOnes BitVec.and_zero BitVec.and_allOnes BitVec.and_allOnes BitVec.and_zero)

theorem MatchesRow.addXAlu (dst src : Reg) : MatchesRow.Statement (.addXAlu dst src) :=
  matchesRow_basic rfl rfl rfl
    (word_matches (m := ⟨BitVec.allOnes 8, 0, 0, BitVec.allOnes 16, BitVec.allOnes 32⟩) (g := ⟨0xc, 0x0, 0x0, 0x0, 0x0⟩) rfl rfl BitVec.and_allOnes BitVec.and_zero BitVec.and_zero BitVec.and_allOnes BitVec.and_allOnes)

theorem MatchesRow.subKAlu (dst : Reg) (imm : BitVec 32) : MatchesRow.Statement (.subKAlu dst imm) :=
  matchesRow_basic rfl rfl rfl
    (word_matches (m := ⟨BitVec.allOnes 8, 0, BitVec.allOnes 4, BitVec.allOnes 16, 0⟩) (g := ⟨0x14, 0x0, 0x0, 0x0, 0x0⟩) rfl rfl BitVec.and_allOnes BitVec.and_zero BitVec.and_allOnes BitVec.and_allOnes BitVec.and_zero)

theorem MatchesRow.subXAlu (dst src : Reg) : MatchesRow.Statement (.subXAlu dst src) :=
  matchesRow_basic rfl rfl rfl
    (word_matches (m := ⟨BitVec.allOnes 8, 0, 0, BitVec.allOnes 16, BitVec.allOnes 32⟩) (g := ⟨0x1c, 0x0, 0x0, 0x0, 0x0⟩) rfl rfl BitVec.and_allOnes BitVec.and_zero BitVec.and_zero BitVec.and_allOnes BitVec.and_allOnes)

theorem MatchesRow.mulKAlu (dst : Reg) (imm : BitVec 32) : MatchesRow.Statement (.mulKAlu dst imm) :=
  matchesRow_basic rfl rfl rfl
    (word_matches (m := ⟨BitVec.allOnes 8, 0, BitVec.allOnes 4, BitVec.allOnes 16, 0⟩) (g := ⟨0x24, 0x0, 0x0, 0x0, 0x0⟩) rfl rfl BitVec.and_allOnes BitVec.and_zero BitVec.and_allOnes BitVec.and_allOnes BitVec.and_zero)

theorem MatchesRow.mulXAlu (dst src : Reg) : MatchesRow.Statement (.mulXAlu dst src) :=
  matchesRow_basic rfl rfl rfl
    (word_matches (m := ⟨BitVec.allOnes 8, 0, 0, BitVec.allOnes 16, BitVec.allOnes 32⟩) (g := ⟨0x2c, 0x0, 0x0, 0x0, 0x0⟩) rfl rfl BitVec.and_allOnes BitVec.and_zero BitVec.and_zero BitVec.and_allOnes BitVec.and_allOnes)

theorem MatchesRow.divKAlu (dst : Reg) (imm : BitVec 32) : MatchesRow.Statement (.divKAlu dst imm) :=
  matchesRow_basic rfl rfl rfl
    (word_matches (m := ⟨BitVec.allOnes 8, 0, BitVec.allOnes 4, BitVec.allOnes 16, 0⟩) (g := ⟨0x34, 0x0, 0x0, 0x0, 0x0⟩) rfl rfl BitVec.and_allOnes BitVec.and_zero BitVec.and_allOnes BitVec.and_allOnes BitVec.and_zero)

theorem MatchesRow.divXAlu (dst src : Reg) : MatchesRow.Statement (.divXAlu dst src) :=
  matchesRow_basic rfl rfl rfl
    (word_matches (m := ⟨BitVec.allOnes 8, 0, 0, BitVec.allOnes 16, BitVec.allOnes 32⟩) (g := ⟨0x3c, 0x0, 0x0, 0x0, 0x0⟩) rfl rfl BitVec.and_allOnes BitVec.and_zero BitVec.and_zero BitVec.and_allOnes BitVec.and_allOnes)

theorem MatchesRow.sdivKAlu (dst : Reg) (imm : BitVec 32) : MatchesRow.Statement (.sdivKAlu dst imm) :=
  matchesRow_basic rfl rfl rfl
    (word_matches (m := ⟨BitVec.allOnes 8, 0, BitVec.allOnes 4, BitVec.allOnes 16, 0⟩) (g := ⟨0x34, 0x0, 0x0, 0x1, 0x0⟩) rfl rfl BitVec.and_allOnes BitVec.and_zero BitVec.and_allOnes BitVec.and_allOnes BitVec.and_zero)

theorem MatchesRow.sdivXAlu (dst src : Reg) : MatchesRow.Statement (.sdivXAlu dst src) :=
  matchesRow_basic rfl rfl rfl
    (word_matches (m := ⟨BitVec.allOnes 8, 0, 0, BitVec.allOnes 16, BitVec.allOnes 32⟩) (g := ⟨0x3c, 0x0, 0x0, 0x1, 0x0⟩) rfl rfl BitVec.and_allOnes BitVec.and_zero BitVec.and_zero BitVec.and_allOnes BitVec.and_allOnes)

theorem MatchesRow.orKAlu (dst : Reg) (imm : BitVec 32) : MatchesRow.Statement (.orKAlu dst imm) :=
  matchesRow_basic rfl rfl rfl
    (word_matches (m := ⟨BitVec.allOnes 8, 0, BitVec.allOnes 4, BitVec.allOnes 16, 0⟩) (g := ⟨0x44, 0x0, 0x0, 0x0, 0x0⟩) rfl rfl BitVec.and_allOnes BitVec.and_zero BitVec.and_allOnes BitVec.and_allOnes BitVec.and_zero)

theorem MatchesRow.orXAlu (dst src : Reg) : MatchesRow.Statement (.orXAlu dst src) :=
  matchesRow_basic rfl rfl rfl
    (word_matches (m := ⟨BitVec.allOnes 8, 0, 0, BitVec.allOnes 16, BitVec.allOnes 32⟩) (g := ⟨0x4c, 0x0, 0x0, 0x0, 0x0⟩) rfl rfl BitVec.and_allOnes BitVec.and_zero BitVec.and_zero BitVec.and_allOnes BitVec.and_allOnes)

theorem MatchesRow.andKAlu (dst : Reg) (imm : BitVec 32) : MatchesRow.Statement (.andKAlu dst imm) :=
  matchesRow_basic rfl rfl rfl
    (word_matches (m := ⟨BitVec.allOnes 8, 0, BitVec.allOnes 4, BitVec.allOnes 16, 0⟩) (g := ⟨0x54, 0x0, 0x0, 0x0, 0x0⟩) rfl rfl BitVec.and_allOnes BitVec.and_zero BitVec.and_allOnes BitVec.and_allOnes BitVec.and_zero)

theorem MatchesRow.andXAlu (dst src : Reg) : MatchesRow.Statement (.andXAlu dst src) :=
  matchesRow_basic rfl rfl rfl
    (word_matches (m := ⟨BitVec.allOnes 8, 0, 0, BitVec.allOnes 16, BitVec.allOnes 32⟩) (g := ⟨0x5c, 0x0, 0x0, 0x0, 0x0⟩) rfl rfl BitVec.and_allOnes BitVec.and_zero BitVec.and_zero BitVec.and_allOnes BitVec.and_allOnes)

theorem MatchesRow.lshKAlu (dst : Reg) (imm : BitVec 32) : MatchesRow.Statement (.lshKAlu dst imm) :=
  matchesRow_basic rfl rfl rfl
    (word_matches (m := ⟨BitVec.allOnes 8, 0, BitVec.allOnes 4, BitVec.allOnes 16, 0⟩) (g := ⟨0x64, 0x0, 0x0, 0x0, 0x0⟩) rfl rfl BitVec.and_allOnes BitVec.and_zero BitVec.and_allOnes BitVec.and_allOnes BitVec.and_zero)

theorem MatchesRow.lshXAlu (dst src : Reg) : MatchesRow.Statement (.lshXAlu dst src) :=
  matchesRow_basic rfl rfl rfl
    (word_matches (m := ⟨BitVec.allOnes 8, 0, 0, BitVec.allOnes 16, BitVec.allOnes 32⟩) (g := ⟨0x6c, 0x0, 0x0, 0x0, 0x0⟩) rfl rfl BitVec.and_allOnes BitVec.and_zero BitVec.and_zero BitVec.and_allOnes BitVec.and_allOnes)

theorem MatchesRow.rshKAlu (dst : Reg) (imm : BitVec 32) : MatchesRow.Statement (.rshKAlu dst imm) :=
  matchesRow_basic rfl rfl rfl
    (word_matches (m := ⟨BitVec.allOnes 8, 0, BitVec.allOnes 4, BitVec.allOnes 16, 0⟩) (g := ⟨0x74, 0x0, 0x0, 0x0, 0x0⟩) rfl rfl BitVec.and_allOnes BitVec.and_zero BitVec.and_allOnes BitVec.and_allOnes BitVec.and_zero)

theorem MatchesRow.rshXAlu (dst src : Reg) : MatchesRow.Statement (.rshXAlu dst src) :=
  matchesRow_basic rfl rfl rfl
    (word_matches (m := ⟨BitVec.allOnes 8, 0, 0, BitVec.allOnes 16, BitVec.allOnes 32⟩) (g := ⟨0x7c, 0x0, 0x0, 0x0, 0x0⟩) rfl rfl BitVec.and_allOnes BitVec.and_zero BitVec.and_zero BitVec.and_allOnes BitVec.and_allOnes)

theorem MatchesRow.negKAlu (dst : Reg) : MatchesRow.Statement (.negKAlu dst) :=
  matchesRow_basic rfl rfl rfl
    (word_matches (m := ⟨BitVec.allOnes 8, 0, BitVec.allOnes 4, BitVec.allOnes 16, BitVec.allOnes 32⟩) (g := ⟨0x84, 0x0, 0x0, 0x0, 0x0⟩) rfl rfl BitVec.and_allOnes BitVec.and_zero BitVec.and_allOnes BitVec.and_allOnes BitVec.and_allOnes)

theorem MatchesRow.modKAlu (dst : Reg) (imm : BitVec 32) : MatchesRow.Statement (.modKAlu dst imm) :=
  matchesRow_basic rfl rfl rfl
    (word_matches (m := ⟨BitVec.allOnes 8, 0, BitVec.allOnes 4, BitVec.allOnes 16, 0⟩) (g := ⟨0x94, 0x0, 0x0, 0x0, 0x0⟩) rfl rfl BitVec.and_allOnes BitVec.and_zero BitVec.and_allOnes BitVec.and_allOnes BitVec.and_zero)

theorem MatchesRow.modXAlu (dst src : Reg) : MatchesRow.Statement (.modXAlu dst src) :=
  matchesRow_basic rfl rfl rfl
    (word_matches (m := ⟨BitVec.allOnes 8, 0, 0, BitVec.allOnes 16, BitVec.allOnes 32⟩) (g := ⟨0x9c, 0x0, 0x0, 0x0, 0x0⟩) rfl rfl BitVec.and_allOnes BitVec.and_zero BitVec.and_zero BitVec.and_allOnes BitVec.and_allOnes)

theorem MatchesRow.smodKAlu (dst : Reg) (imm : BitVec 32) : MatchesRow.Statement (.smodKAlu dst imm) :=
  matchesRow_basic rfl rfl rfl
    (word_matches (m := ⟨BitVec.allOnes 8, 0, BitVec.allOnes 4, BitVec.allOnes 16, 0⟩) (g := ⟨0x94, 0x0, 0x0, 0x1, 0x0⟩) rfl rfl BitVec.and_allOnes BitVec.and_zero BitVec.and_allOnes BitVec.and_allOnes BitVec.and_zero)

theorem MatchesRow.smodXAlu (dst src : Reg) : MatchesRow.Statement (.smodXAlu dst src) :=
  matchesRow_basic rfl rfl rfl
    (word_matches (m := ⟨BitVec.allOnes 8, 0, 0, BitVec.allOnes 16, BitVec.allOnes 32⟩) (g := ⟨0x9c, 0x0, 0x0, 0x1, 0x0⟩) rfl rfl BitVec.and_allOnes BitVec.and_zero BitVec.and_zero BitVec.and_allOnes BitVec.and_allOnes)

theorem MatchesRow.xorKAlu (dst : Reg) (imm : BitVec 32) : MatchesRow.Statement (.xorKAlu dst imm) :=
  matchesRow_basic rfl rfl rfl
    (word_matches (m := ⟨BitVec.allOnes 8, 0, BitVec.allOnes 4, BitVec.allOnes 16, 0⟩) (g := ⟨0xa4, 0x0, 0x0, 0x0, 0x0⟩) rfl rfl BitVec.and_allOnes BitVec.and_zero BitVec.and_allOnes BitVec.and_allOnes BitVec.and_zero)

theorem MatchesRow.xorXAlu (dst src : Reg) : MatchesRow.Statement (.xorXAlu dst src) :=
  matchesRow_basic rfl rfl rfl
    (word_matches (m := ⟨BitVec.allOnes 8, 0, 0, BitVec.allOnes 16, BitVec.allOnes 32⟩) (g := ⟨0xac, 0x0, 0x0, 0x0, 0x0⟩) rfl rfl BitVec.and_allOnes BitVec.and_zero BitVec.and_zero BitVec.and_allOnes BitVec.and_allOnes)

theorem MatchesRow.movKAlu (dst : Reg) (imm : BitVec 32) : MatchesRow.Statement (.movKAlu dst imm) :=
  matchesRow_basic rfl rfl rfl
    (word_matches (m := ⟨BitVec.allOnes 8, 0, BitVec.allOnes 4, BitVec.allOnes 16, 0⟩) (g := ⟨0xb4, 0x0, 0x0, 0x0, 0x0⟩) rfl rfl BitVec.and_allOnes BitVec.and_zero BitVec.and_allOnes BitVec.and_allOnes BitVec.and_zero)

theorem MatchesRow.movXAlu (dst src : Reg) : MatchesRow.Statement (.movXAlu dst src) :=
  matchesRow_basic rfl rfl rfl
    (word_matches (m := ⟨BitVec.allOnes 8, 0, 0, BitVec.allOnes 16, BitVec.allOnes 32⟩) (g := ⟨0xbc, 0x0, 0x0, 0x0, 0x0⟩) rfl rfl BitVec.and_allOnes BitVec.and_zero BitVec.and_zero BitVec.and_allOnes BitVec.and_allOnes)

theorem MatchesRow.movsx8XAlu (dst src : Reg) : MatchesRow.Statement (.movsx8XAlu dst src) :=
  matchesRow_basic rfl rfl rfl
    (word_matches (m := ⟨BitVec.allOnes 8, 0, 0, BitVec.allOnes 16, BitVec.allOnes 32⟩) (g := ⟨0xbc, 0x0, 0x0, 0x8, 0x0⟩) rfl rfl BitVec.and_allOnes BitVec.and_zero BitVec.and_zero BitVec.and_allOnes BitVec.and_allOnes)

theorem MatchesRow.movsx16XAlu (dst src : Reg) : MatchesRow.Statement (.movsx16XAlu dst src) :=
  matchesRow_basic rfl rfl rfl
    (word_matches (m := ⟨BitVec.allOnes 8, 0, 0, BitVec.allOnes 16, BitVec.allOnes 32⟩) (g := ⟨0xbc, 0x0, 0x0, 0x10, 0x0⟩) rfl rfl BitVec.and_allOnes BitVec.and_zero BitVec.and_zero BitVec.and_allOnes BitVec.and_allOnes)

theorem MatchesRow.arshKAlu (dst : Reg) (imm : BitVec 32) : MatchesRow.Statement (.arshKAlu dst imm) :=
  matchesRow_basic rfl rfl rfl
    (word_matches (m := ⟨BitVec.allOnes 8, 0, BitVec.allOnes 4, BitVec.allOnes 16, 0⟩) (g := ⟨0xc4, 0x0, 0x0, 0x0, 0x0⟩) rfl rfl BitVec.and_allOnes BitVec.and_zero BitVec.and_allOnes BitVec.and_allOnes BitVec.and_zero)

theorem MatchesRow.arshXAlu (dst src : Reg) : MatchesRow.Statement (.arshXAlu dst src) :=
  matchesRow_basic rfl rfl rfl
    (word_matches (m := ⟨BitVec.allOnes 8, 0, 0, BitVec.allOnes 16, BitVec.allOnes 32⟩) (g := ⟨0xcc, 0x0, 0x0, 0x0, 0x0⟩) rfl rfl BitVec.and_allOnes BitVec.and_zero BitVec.and_zero BitVec.and_allOnes BitVec.and_allOnes)

theorem MatchesRow.addKAlu64 (dst : Reg) (imm : BitVec 32) : MatchesRow.Statement (.addKAlu64 dst imm) :=
  matchesRow_basic rfl rfl rfl
    (word_matches (m := ⟨BitVec.allOnes 8, 0, BitVec.allOnes 4, BitVec.allOnes 16, 0⟩) (g := ⟨0x7, 0x0, 0x0, 0x0, 0x0⟩) rfl rfl BitVec.and_allOnes BitVec.and_zero BitVec.and_allOnes BitVec.and_allOnes BitVec.and_zero)

theorem MatchesRow.addXAlu64 (dst src : Reg) : MatchesRow.Statement (.addXAlu64 dst src) :=
  matchesRow_basic rfl rfl rfl
    (word_matches (m := ⟨BitVec.allOnes 8, 0, 0, BitVec.allOnes 16, BitVec.allOnes 32⟩) (g := ⟨0xf, 0x0, 0x0, 0x0, 0x0⟩) rfl rfl BitVec.and_allOnes BitVec.and_zero BitVec.and_zero BitVec.and_allOnes BitVec.and_allOnes)

theorem MatchesRow.subKAlu64 (dst : Reg) (imm : BitVec 32) : MatchesRow.Statement (.subKAlu64 dst imm) :=
  matchesRow_basic rfl rfl rfl
    (word_matches (m := ⟨BitVec.allOnes 8, 0, BitVec.allOnes 4, BitVec.allOnes 16, 0⟩) (g := ⟨0x17, 0x0, 0x0, 0x0, 0x0⟩) rfl rfl BitVec.and_allOnes BitVec.and_zero BitVec.and_allOnes BitVec.and_allOnes BitVec.and_zero)

theorem MatchesRow.subXAlu64 (dst src : Reg) : MatchesRow.Statement (.subXAlu64 dst src) :=
  matchesRow_basic rfl rfl rfl
    (word_matches (m := ⟨BitVec.allOnes 8, 0, 0, BitVec.allOnes 16, BitVec.allOnes 32⟩) (g := ⟨0x1f, 0x0, 0x0, 0x0, 0x0⟩) rfl rfl BitVec.and_allOnes BitVec.and_zero BitVec.and_zero BitVec.and_allOnes BitVec.and_allOnes)

theorem MatchesRow.mulKAlu64 (dst : Reg) (imm : BitVec 32) : MatchesRow.Statement (.mulKAlu64 dst imm) :=
  matchesRow_basic rfl rfl rfl
    (word_matches (m := ⟨BitVec.allOnes 8, 0, BitVec.allOnes 4, BitVec.allOnes 16, 0⟩) (g := ⟨0x27, 0x0, 0x0, 0x0, 0x0⟩) rfl rfl BitVec.and_allOnes BitVec.and_zero BitVec.and_allOnes BitVec.and_allOnes BitVec.and_zero)

theorem MatchesRow.mulXAlu64 (dst src : Reg) : MatchesRow.Statement (.mulXAlu64 dst src) :=
  matchesRow_basic rfl rfl rfl
    (word_matches (m := ⟨BitVec.allOnes 8, 0, 0, BitVec.allOnes 16, BitVec.allOnes 32⟩) (g := ⟨0x2f, 0x0, 0x0, 0x0, 0x0⟩) rfl rfl BitVec.and_allOnes BitVec.and_zero BitVec.and_zero BitVec.and_allOnes BitVec.and_allOnes)

theorem MatchesRow.divKAlu64 (dst : Reg) (imm : BitVec 32) : MatchesRow.Statement (.divKAlu64 dst imm) :=
  matchesRow_basic rfl rfl rfl
    (word_matches (m := ⟨BitVec.allOnes 8, 0, BitVec.allOnes 4, BitVec.allOnes 16, 0⟩) (g := ⟨0x37, 0x0, 0x0, 0x0, 0x0⟩) rfl rfl BitVec.and_allOnes BitVec.and_zero BitVec.and_allOnes BitVec.and_allOnes BitVec.and_zero)

theorem MatchesRow.divXAlu64 (dst src : Reg) : MatchesRow.Statement (.divXAlu64 dst src) :=
  matchesRow_basic rfl rfl rfl
    (word_matches (m := ⟨BitVec.allOnes 8, 0, 0, BitVec.allOnes 16, BitVec.allOnes 32⟩) (g := ⟨0x3f, 0x0, 0x0, 0x0, 0x0⟩) rfl rfl BitVec.and_allOnes BitVec.and_zero BitVec.and_zero BitVec.and_allOnes BitVec.and_allOnes)

theorem MatchesRow.sdivKAlu64 (dst : Reg) (imm : BitVec 32) : MatchesRow.Statement (.sdivKAlu64 dst imm) :=
  matchesRow_basic rfl rfl rfl
    (word_matches (m := ⟨BitVec.allOnes 8, 0, BitVec.allOnes 4, BitVec.allOnes 16, 0⟩) (g := ⟨0x37, 0x0, 0x0, 0x1, 0x0⟩) rfl rfl BitVec.and_allOnes BitVec.and_zero BitVec.and_allOnes BitVec.and_allOnes BitVec.and_zero)

theorem MatchesRow.sdivXAlu64 (dst src : Reg) : MatchesRow.Statement (.sdivXAlu64 dst src) :=
  matchesRow_basic rfl rfl rfl
    (word_matches (m := ⟨BitVec.allOnes 8, 0, 0, BitVec.allOnes 16, BitVec.allOnes 32⟩) (g := ⟨0x3f, 0x0, 0x0, 0x1, 0x0⟩) rfl rfl BitVec.and_allOnes BitVec.and_zero BitVec.and_zero BitVec.and_allOnes BitVec.and_allOnes)

theorem MatchesRow.orKAlu64 (dst : Reg) (imm : BitVec 32) : MatchesRow.Statement (.orKAlu64 dst imm) :=
  matchesRow_basic rfl rfl rfl
    (word_matches (m := ⟨BitVec.allOnes 8, 0, BitVec.allOnes 4, BitVec.allOnes 16, 0⟩) (g := ⟨0x47, 0x0, 0x0, 0x0, 0x0⟩) rfl rfl BitVec.and_allOnes BitVec.and_zero BitVec.and_allOnes BitVec.and_allOnes BitVec.and_zero)

theorem MatchesRow.orXAlu64 (dst src : Reg) : MatchesRow.Statement (.orXAlu64 dst src) :=
  matchesRow_basic rfl rfl rfl
    (word_matches (m := ⟨BitVec.allOnes 8, 0, 0, BitVec.allOnes 16, BitVec.allOnes 32⟩) (g := ⟨0x4f, 0x0, 0x0, 0x0, 0x0⟩) rfl rfl BitVec.and_allOnes BitVec.and_zero BitVec.and_zero BitVec.and_allOnes BitVec.and_allOnes)

theorem MatchesRow.andKAlu64 (dst : Reg) (imm : BitVec 32) : MatchesRow.Statement (.andKAlu64 dst imm) :=
  matchesRow_basic rfl rfl rfl
    (word_matches (m := ⟨BitVec.allOnes 8, 0, BitVec.allOnes 4, BitVec.allOnes 16, 0⟩) (g := ⟨0x57, 0x0, 0x0, 0x0, 0x0⟩) rfl rfl BitVec.and_allOnes BitVec.and_zero BitVec.and_allOnes BitVec.and_allOnes BitVec.and_zero)

theorem MatchesRow.andXAlu64 (dst src : Reg) : MatchesRow.Statement (.andXAlu64 dst src) :=
  matchesRow_basic rfl rfl rfl
    (word_matches (m := ⟨BitVec.allOnes 8, 0, 0, BitVec.allOnes 16, BitVec.allOnes 32⟩) (g := ⟨0x5f, 0x0, 0x0, 0x0, 0x0⟩) rfl rfl BitVec.and_allOnes BitVec.and_zero BitVec.and_zero BitVec.and_allOnes BitVec.and_allOnes)

theorem MatchesRow.lshKAlu64 (dst : Reg) (imm : BitVec 32) : MatchesRow.Statement (.lshKAlu64 dst imm) :=
  matchesRow_basic rfl rfl rfl
    (word_matches (m := ⟨BitVec.allOnes 8, 0, BitVec.allOnes 4, BitVec.allOnes 16, 0⟩) (g := ⟨0x67, 0x0, 0x0, 0x0, 0x0⟩) rfl rfl BitVec.and_allOnes BitVec.and_zero BitVec.and_allOnes BitVec.and_allOnes BitVec.and_zero)

theorem MatchesRow.lshXAlu64 (dst src : Reg) : MatchesRow.Statement (.lshXAlu64 dst src) :=
  matchesRow_basic rfl rfl rfl
    (word_matches (m := ⟨BitVec.allOnes 8, 0, 0, BitVec.allOnes 16, BitVec.allOnes 32⟩) (g := ⟨0x6f, 0x0, 0x0, 0x0, 0x0⟩) rfl rfl BitVec.and_allOnes BitVec.and_zero BitVec.and_zero BitVec.and_allOnes BitVec.and_allOnes)

theorem MatchesRow.rshKAlu64 (dst : Reg) (imm : BitVec 32) : MatchesRow.Statement (.rshKAlu64 dst imm) :=
  matchesRow_basic rfl rfl rfl
    (word_matches (m := ⟨BitVec.allOnes 8, 0, BitVec.allOnes 4, BitVec.allOnes 16, 0⟩) (g := ⟨0x77, 0x0, 0x0, 0x0, 0x0⟩) rfl rfl BitVec.and_allOnes BitVec.and_zero BitVec.and_allOnes BitVec.and_allOnes BitVec.and_zero)

theorem MatchesRow.rshXAlu64 (dst src : Reg) : MatchesRow.Statement (.rshXAlu64 dst src) :=
  matchesRow_basic rfl rfl rfl
    (word_matches (m := ⟨BitVec.allOnes 8, 0, 0, BitVec.allOnes 16, BitVec.allOnes 32⟩) (g := ⟨0x7f, 0x0, 0x0, 0x0, 0x0⟩) rfl rfl BitVec.and_allOnes BitVec.and_zero BitVec.and_zero BitVec.and_allOnes BitVec.and_allOnes)

theorem MatchesRow.negKAlu64 (dst : Reg) : MatchesRow.Statement (.negKAlu64 dst) :=
  matchesRow_basic rfl rfl rfl
    (word_matches (m := ⟨BitVec.allOnes 8, 0, BitVec.allOnes 4, BitVec.allOnes 16, BitVec.allOnes 32⟩) (g := ⟨0x87, 0x0, 0x0, 0x0, 0x0⟩) rfl rfl BitVec.and_allOnes BitVec.and_zero BitVec.and_allOnes BitVec.and_allOnes BitVec.and_allOnes)

theorem MatchesRow.modKAlu64 (dst : Reg) (imm : BitVec 32) : MatchesRow.Statement (.modKAlu64 dst imm) :=
  matchesRow_basic rfl rfl rfl
    (word_matches (m := ⟨BitVec.allOnes 8, 0, BitVec.allOnes 4, BitVec.allOnes 16, 0⟩) (g := ⟨0x97, 0x0, 0x0, 0x0, 0x0⟩) rfl rfl BitVec.and_allOnes BitVec.and_zero BitVec.and_allOnes BitVec.and_allOnes BitVec.and_zero)

theorem MatchesRow.modXAlu64 (dst src : Reg) : MatchesRow.Statement (.modXAlu64 dst src) :=
  matchesRow_basic rfl rfl rfl
    (word_matches (m := ⟨BitVec.allOnes 8, 0, 0, BitVec.allOnes 16, BitVec.allOnes 32⟩) (g := ⟨0x9f, 0x0, 0x0, 0x0, 0x0⟩) rfl rfl BitVec.and_allOnes BitVec.and_zero BitVec.and_zero BitVec.and_allOnes BitVec.and_allOnes)

theorem MatchesRow.smodKAlu64 (dst : Reg) (imm : BitVec 32) : MatchesRow.Statement (.smodKAlu64 dst imm) :=
  matchesRow_basic rfl rfl rfl
    (word_matches (m := ⟨BitVec.allOnes 8, 0, BitVec.allOnes 4, BitVec.allOnes 16, 0⟩) (g := ⟨0x97, 0x0, 0x0, 0x1, 0x0⟩) rfl rfl BitVec.and_allOnes BitVec.and_zero BitVec.and_allOnes BitVec.and_allOnes BitVec.and_zero)

theorem MatchesRow.smodXAlu64 (dst src : Reg) : MatchesRow.Statement (.smodXAlu64 dst src) :=
  matchesRow_basic rfl rfl rfl
    (word_matches (m := ⟨BitVec.allOnes 8, 0, 0, BitVec.allOnes 16, BitVec.allOnes 32⟩) (g := ⟨0x9f, 0x0, 0x0, 0x1, 0x0⟩) rfl rfl BitVec.and_allOnes BitVec.and_zero BitVec.and_zero BitVec.and_allOnes BitVec.and_allOnes)

theorem MatchesRow.xorKAlu64 (dst : Reg) (imm : BitVec 32) : MatchesRow.Statement (.xorKAlu64 dst imm) :=
  matchesRow_basic rfl rfl rfl
    (word_matches (m := ⟨BitVec.allOnes 8, 0, BitVec.allOnes 4, BitVec.allOnes 16, 0⟩) (g := ⟨0xa7, 0x0, 0x0, 0x0, 0x0⟩) rfl rfl BitVec.and_allOnes BitVec.and_zero BitVec.and_allOnes BitVec.and_allOnes BitVec.and_zero)

theorem MatchesRow.xorXAlu64 (dst src : Reg) : MatchesRow.Statement (.xorXAlu64 dst src) :=
  matchesRow_basic rfl rfl rfl
    (word_matches (m := ⟨BitVec.allOnes 8, 0, 0, BitVec.allOnes 16, BitVec.allOnes 32⟩) (g := ⟨0xaf, 0x0, 0x0, 0x0, 0x0⟩) rfl rfl BitVec.and_allOnes BitVec.and_zero BitVec.and_zero BitVec.and_allOnes BitVec.and_allOnes)

theorem MatchesRow.movKAlu64 (dst : Reg) (imm : BitVec 32) : MatchesRow.Statement (.movKAlu64 dst imm) :=
  matchesRow_basic rfl rfl rfl
    (word_matches (m := ⟨BitVec.allOnes 8, 0, BitVec.allOnes 4, BitVec.allOnes 16, 0⟩) (g := ⟨0xb7, 0x0, 0x0, 0x0, 0x0⟩) rfl rfl BitVec.and_allOnes BitVec.and_zero BitVec.and_allOnes BitVec.and_allOnes BitVec.and_zero)

theorem MatchesRow.movXAlu64 (dst src : Reg) : MatchesRow.Statement (.movXAlu64 dst src) :=
  matchesRow_basic rfl rfl rfl
    (word_matches (m := ⟨BitVec.allOnes 8, 0, 0, BitVec.allOnes 16, BitVec.allOnes 32⟩) (g := ⟨0xbf, 0x0, 0x0, 0x0, 0x0⟩) rfl rfl BitVec.and_allOnes BitVec.and_zero BitVec.and_zero BitVec.and_allOnes BitVec.and_allOnes)

theorem MatchesRow.movsx8XAlu64 (dst src : Reg) : MatchesRow.Statement (.movsx8XAlu64 dst src) :=
  matchesRow_basic rfl rfl rfl
    (word_matches (m := ⟨BitVec.allOnes 8, 0, 0, BitVec.allOnes 16, BitVec.allOnes 32⟩) (g := ⟨0xbf, 0x0, 0x0, 0x8, 0x0⟩) rfl rfl BitVec.and_allOnes BitVec.and_zero BitVec.and_zero BitVec.and_allOnes BitVec.and_allOnes)

theorem MatchesRow.movsx16XAlu64 (dst src : Reg) : MatchesRow.Statement (.movsx16XAlu64 dst src) :=
  matchesRow_basic rfl rfl rfl
    (word_matches (m := ⟨BitVec.allOnes 8, 0, 0, BitVec.allOnes 16, BitVec.allOnes 32⟩) (g := ⟨0xbf, 0x0, 0x0, 0x10, 0x0⟩) rfl rfl BitVec.and_allOnes BitVec.and_zero BitVec.and_zero BitVec.and_allOnes BitVec.and_allOnes)

theorem MatchesRow.movsx32XAlu64 (dst src : Reg) : MatchesRow.Statement (.movsx32XAlu64 dst src) :=
  matchesRow_basic rfl rfl rfl
    (word_matches (m := ⟨BitVec.allOnes 8, 0, 0, BitVec.allOnes 16, BitVec.allOnes 32⟩) (g := ⟨0xbf, 0x0, 0x0, 0x20, 0x0⟩) rfl rfl BitVec.and_allOnes BitVec.and_zero BitVec.and_zero BitVec.and_allOnes BitVec.and_allOnes)

theorem MatchesRow.arshKAlu64 (dst : Reg) (imm : BitVec 32) : MatchesRow.Statement (.arshKAlu64 dst imm) :=
  matchesRow_basic rfl rfl rfl
    (word_matches (m := ⟨BitVec.allOnes 8, 0, BitVec.allOnes 4, BitVec.allOnes 16, 0⟩) (g := ⟨0xc7, 0x0, 0x0, 0x0, 0x0⟩) rfl rfl BitVec.and_allOnes BitVec.and_zero BitVec.and_allOnes BitVec.and_allOnes BitVec.and_zero)

theorem MatchesRow.arshXAlu64 (dst src : Reg) : MatchesRow.Statement (.arshXAlu64 dst src) :=
  matchesRow_basic rfl rfl rfl
    (word_matches (m := ⟨BitVec.allOnes 8, 0, 0, BitVec.allOnes 16, BitVec.allOnes 32⟩) (g := ⟨0xcf, 0x0, 0x0, 0x0, 0x0⟩) rfl rfl BitVec.and_allOnes BitVec.and_zero BitVec.and_zero BitVec.and_allOnes BitVec.and_allOnes)

theorem MatchesRow.endToLeAlu16 (dst : Reg) : MatchesRow.Statement (.endToLeAlu16 dst) :=
  matchesRow_basic rfl rfl rfl
    (word_matches (m := ⟨BitVec.allOnes 8, 0, BitVec.allOnes 4, BitVec.allOnes 16, BitVec.allOnes 32⟩) (g := ⟨0xd4, 0x0, 0x0, 0x0, 0x10⟩) rfl rfl BitVec.and_allOnes BitVec.and_zero BitVec.and_allOnes BitVec.and_allOnes BitVec.and_allOnes)

theorem MatchesRow.endToLeAlu32 (dst : Reg) : MatchesRow.Statement (.endToLeAlu32 dst) :=
  matchesRow_basic rfl rfl rfl
    (word_matches (m := ⟨BitVec.allOnes 8, 0, BitVec.allOnes 4, BitVec.allOnes 16, BitVec.allOnes 32⟩) (g := ⟨0xd4, 0x0, 0x0, 0x0, 0x20⟩) rfl rfl BitVec.and_allOnes BitVec.and_zero BitVec.and_allOnes BitVec.and_allOnes BitVec.and_allOnes)

theorem MatchesRow.endToLeAlu64 (dst : Reg) : MatchesRow.Statement (.endToLeAlu64 dst) :=
  matchesRow_basic rfl rfl rfl
    (word_matches (m := ⟨BitVec.allOnes 8, 0, BitVec.allOnes 4, BitVec.allOnes 16, BitVec.allOnes 32⟩) (g := ⟨0xd4, 0x0, 0x0, 0x0, 0x40⟩) rfl rfl BitVec.and_allOnes BitVec.and_zero BitVec.and_allOnes BitVec.and_allOnes BitVec.and_allOnes)

theorem MatchesRow.endToBeAlu16 (dst : Reg) : MatchesRow.Statement (.endToBeAlu16 dst) :=
  matchesRow_basic rfl rfl rfl
    (word_matches (m := ⟨BitVec.allOnes 8, 0, BitVec.allOnes 4, BitVec.allOnes 16, BitVec.allOnes 32⟩) (g := ⟨0xdc, 0x0, 0x0, 0x0, 0x10⟩) rfl rfl BitVec.and_allOnes BitVec.and_zero BitVec.and_allOnes BitVec.and_allOnes BitVec.and_allOnes)

theorem MatchesRow.endToBeAlu32 (dst : Reg) : MatchesRow.Statement (.endToBeAlu32 dst) :=
  matchesRow_basic rfl rfl rfl
    (word_matches (m := ⟨BitVec.allOnes 8, 0, BitVec.allOnes 4, BitVec.allOnes 16, BitVec.allOnes 32⟩) (g := ⟨0xdc, 0x0, 0x0, 0x0, 0x20⟩) rfl rfl BitVec.and_allOnes BitVec.and_zero BitVec.and_allOnes BitVec.and_allOnes BitVec.and_allOnes)

theorem MatchesRow.endToBeAlu64 (dst : Reg) : MatchesRow.Statement (.endToBeAlu64 dst) :=
  matchesRow_basic rfl rfl rfl
    (word_matches (m := ⟨BitVec.allOnes 8, 0, BitVec.allOnes 4, BitVec.allOnes 16, BitVec.allOnes 32⟩) (g := ⟨0xdc, 0x0, 0x0, 0x0, 0x40⟩) rfl rfl BitVec.and_allOnes BitVec.and_zero BitVec.and_allOnes BitVec.and_allOnes BitVec.and_allOnes)

theorem MatchesRow.endAlu64Swap16 (dst : Reg) : MatchesRow.Statement (.endAlu64Swap16 dst) :=
  matchesRow_basic rfl rfl rfl
    (word_matches (m := ⟨BitVec.allOnes 8, 0, BitVec.allOnes 4, BitVec.allOnes 16, BitVec.allOnes 32⟩) (g := ⟨0xd7, 0x0, 0x0, 0x0, 0x10⟩) rfl rfl BitVec.and_allOnes BitVec.and_zero BitVec.and_allOnes BitVec.and_allOnes BitVec.and_allOnes)

theorem MatchesRow.endAlu64Swap32 (dst : Reg) : MatchesRow.Statement (.endAlu64Swap32 dst) :=
  matchesRow_basic rfl rfl rfl
    (word_matches (m := ⟨BitVec.allOnes 8, 0, BitVec.allOnes 4, BitVec.allOnes 16, BitVec.allOnes 32⟩) (g := ⟨0xd7, 0x0, 0x0, 0x0, 0x20⟩) rfl rfl BitVec.and_allOnes BitVec.and_zero BitVec.and_allOnes BitVec.and_allOnes BitVec.and_allOnes)

theorem MatchesRow.endAlu64Swap64 (dst : Reg) : MatchesRow.Statement (.endAlu64Swap64 dst) :=
  matchesRow_basic rfl rfl rfl
    (word_matches (m := ⟨BitVec.allOnes 8, 0, BitVec.allOnes 4, BitVec.allOnes 16, BitVec.allOnes 32⟩) (g := ⟨0xd7, 0x0, 0x0, 0x0, 0x40⟩) rfl rfl BitVec.and_allOnes BitVec.and_zero BitVec.and_allOnes BitVec.and_allOnes BitVec.and_allOnes)

theorem MatchesRow.jaKJmp (offset : BitVec 16) : MatchesRow.Statement (.jaKJmp offset) :=
  matchesRow_basic rfl rfl rfl
    (word_matches (m := ⟨BitVec.allOnes 8, BitVec.allOnes 4, BitVec.allOnes 4, 0, BitVec.allOnes 32⟩) (g := ⟨0x5, 0x0, 0x0, 0x0, 0x0⟩) rfl rfl BitVec.and_allOnes BitVec.and_allOnes BitVec.and_allOnes BitVec.and_zero BitVec.and_allOnes)

theorem MatchesRow.jeqKJmp (dst : Reg) (imm : BitVec 32) (offset : BitVec 16) : MatchesRow.Statement (.jeqKJmp dst imm offset) :=
  matchesRow_basic rfl rfl rfl
    (word_matches (m := ⟨BitVec.allOnes 8, 0, BitVec.allOnes 4, 0, 0⟩) (g := ⟨0x15, 0x0, 0x0, 0x0, 0x0⟩) rfl rfl BitVec.and_allOnes BitVec.and_zero BitVec.and_allOnes BitVec.and_zero BitVec.and_zero)

theorem MatchesRow.jeqXJmp (dst src : Reg) (offset : BitVec 16) : MatchesRow.Statement (.jeqXJmp dst src offset) :=
  matchesRow_basic rfl rfl rfl
    (word_matches (m := ⟨BitVec.allOnes 8, 0, 0, 0, BitVec.allOnes 32⟩) (g := ⟨0x1d, 0x0, 0x0, 0x0, 0x0⟩) rfl rfl BitVec.and_allOnes BitVec.and_zero BitVec.and_zero BitVec.and_zero BitVec.and_allOnes)

theorem MatchesRow.jgtKJmp (dst : Reg) (imm : BitVec 32) (offset : BitVec 16) : MatchesRow.Statement (.jgtKJmp dst imm offset) :=
  matchesRow_basic rfl rfl rfl
    (word_matches (m := ⟨BitVec.allOnes 8, 0, BitVec.allOnes 4, 0, 0⟩) (g := ⟨0x25, 0x0, 0x0, 0x0, 0x0⟩) rfl rfl BitVec.and_allOnes BitVec.and_zero BitVec.and_allOnes BitVec.and_zero BitVec.and_zero)

theorem MatchesRow.jgtXJmp (dst src : Reg) (offset : BitVec 16) : MatchesRow.Statement (.jgtXJmp dst src offset) :=
  matchesRow_basic rfl rfl rfl
    (word_matches (m := ⟨BitVec.allOnes 8, 0, 0, 0, BitVec.allOnes 32⟩) (g := ⟨0x2d, 0x0, 0x0, 0x0, 0x0⟩) rfl rfl BitVec.and_allOnes BitVec.and_zero BitVec.and_zero BitVec.and_zero BitVec.and_allOnes)

theorem MatchesRow.jgeKJmp (dst : Reg) (imm : BitVec 32) (offset : BitVec 16) : MatchesRow.Statement (.jgeKJmp dst imm offset) :=
  matchesRow_basic rfl rfl rfl
    (word_matches (m := ⟨BitVec.allOnes 8, 0, BitVec.allOnes 4, 0, 0⟩) (g := ⟨0x35, 0x0, 0x0, 0x0, 0x0⟩) rfl rfl BitVec.and_allOnes BitVec.and_zero BitVec.and_allOnes BitVec.and_zero BitVec.and_zero)

theorem MatchesRow.jgeXJmp (dst src : Reg) (offset : BitVec 16) : MatchesRow.Statement (.jgeXJmp dst src offset) :=
  matchesRow_basic rfl rfl rfl
    (word_matches (m := ⟨BitVec.allOnes 8, 0, 0, 0, BitVec.allOnes 32⟩) (g := ⟨0x3d, 0x0, 0x0, 0x0, 0x0⟩) rfl rfl BitVec.and_allOnes BitVec.and_zero BitVec.and_zero BitVec.and_zero BitVec.and_allOnes)

theorem MatchesRow.jsetKJmp (dst : Reg) (imm : BitVec 32) (offset : BitVec 16) : MatchesRow.Statement (.jsetKJmp dst imm offset) :=
  matchesRow_basic rfl rfl rfl
    (word_matches (m := ⟨BitVec.allOnes 8, 0, BitVec.allOnes 4, 0, 0⟩) (g := ⟨0x45, 0x0, 0x0, 0x0, 0x0⟩) rfl rfl BitVec.and_allOnes BitVec.and_zero BitVec.and_allOnes BitVec.and_zero BitVec.and_zero)

theorem MatchesRow.jsetXJmp (dst src : Reg) (offset : BitVec 16) : MatchesRow.Statement (.jsetXJmp dst src offset) :=
  matchesRow_basic rfl rfl rfl
    (word_matches (m := ⟨BitVec.allOnes 8, 0, 0, 0, BitVec.allOnes 32⟩) (g := ⟨0x4d, 0x0, 0x0, 0x0, 0x0⟩) rfl rfl BitVec.and_allOnes BitVec.and_zero BitVec.and_zero BitVec.and_zero BitVec.and_allOnes)

theorem MatchesRow.jneKJmp (dst : Reg) (imm : BitVec 32) (offset : BitVec 16) : MatchesRow.Statement (.jneKJmp dst imm offset) :=
  matchesRow_basic rfl rfl rfl
    (word_matches (m := ⟨BitVec.allOnes 8, 0, BitVec.allOnes 4, 0, 0⟩) (g := ⟨0x55, 0x0, 0x0, 0x0, 0x0⟩) rfl rfl BitVec.and_allOnes BitVec.and_zero BitVec.and_allOnes BitVec.and_zero BitVec.and_zero)

theorem MatchesRow.jneXJmp (dst src : Reg) (offset : BitVec 16) : MatchesRow.Statement (.jneXJmp dst src offset) :=
  matchesRow_basic rfl rfl rfl
    (word_matches (m := ⟨BitVec.allOnes 8, 0, 0, 0, BitVec.allOnes 32⟩) (g := ⟨0x5d, 0x0, 0x0, 0x0, 0x0⟩) rfl rfl BitVec.and_allOnes BitVec.and_zero BitVec.and_zero BitVec.and_zero BitVec.and_allOnes)

theorem MatchesRow.jsgtKJmp (dst : Reg) (imm : BitVec 32) (offset : BitVec 16) : MatchesRow.Statement (.jsgtKJmp dst imm offset) :=
  matchesRow_basic rfl rfl rfl
    (word_matches (m := ⟨BitVec.allOnes 8, 0, BitVec.allOnes 4, 0, 0⟩) (g := ⟨0x65, 0x0, 0x0, 0x0, 0x0⟩) rfl rfl BitVec.and_allOnes BitVec.and_zero BitVec.and_allOnes BitVec.and_zero BitVec.and_zero)

theorem MatchesRow.jsgtXJmp (dst src : Reg) (offset : BitVec 16) : MatchesRow.Statement (.jsgtXJmp dst src offset) :=
  matchesRow_basic rfl rfl rfl
    (word_matches (m := ⟨BitVec.allOnes 8, 0, 0, 0, BitVec.allOnes 32⟩) (g := ⟨0x6d, 0x0, 0x0, 0x0, 0x0⟩) rfl rfl BitVec.and_allOnes BitVec.and_zero BitVec.and_zero BitVec.and_zero BitVec.and_allOnes)

theorem MatchesRow.jsgeKJmp (dst : Reg) (imm : BitVec 32) (offset : BitVec 16) : MatchesRow.Statement (.jsgeKJmp dst imm offset) :=
  matchesRow_basic rfl rfl rfl
    (word_matches (m := ⟨BitVec.allOnes 8, 0, BitVec.allOnes 4, 0, 0⟩) (g := ⟨0x75, 0x0, 0x0, 0x0, 0x0⟩) rfl rfl BitVec.and_allOnes BitVec.and_zero BitVec.and_allOnes BitVec.and_zero BitVec.and_zero)

theorem MatchesRow.jsgeXJmp (dst src : Reg) (offset : BitVec 16) : MatchesRow.Statement (.jsgeXJmp dst src offset) :=
  matchesRow_basic rfl rfl rfl
    (word_matches (m := ⟨BitVec.allOnes 8, 0, 0, 0, BitVec.allOnes 32⟩) (g := ⟨0x7d, 0x0, 0x0, 0x0, 0x0⟩) rfl rfl BitVec.and_allOnes BitVec.and_zero BitVec.and_zero BitVec.and_zero BitVec.and_allOnes)

theorem MatchesRow.jltKJmp (dst : Reg) (imm : BitVec 32) (offset : BitVec 16) : MatchesRow.Statement (.jltKJmp dst imm offset) :=
  matchesRow_basic rfl rfl rfl
    (word_matches (m := ⟨BitVec.allOnes 8, 0, BitVec.allOnes 4, 0, 0⟩) (g := ⟨0xa5, 0x0, 0x0, 0x0, 0x0⟩) rfl rfl BitVec.and_allOnes BitVec.and_zero BitVec.and_allOnes BitVec.and_zero BitVec.and_zero)

theorem MatchesRow.jltXJmp (dst src : Reg) (offset : BitVec 16) : MatchesRow.Statement (.jltXJmp dst src offset) :=
  matchesRow_basic rfl rfl rfl
    (word_matches (m := ⟨BitVec.allOnes 8, 0, 0, 0, BitVec.allOnes 32⟩) (g := ⟨0xad, 0x0, 0x0, 0x0, 0x0⟩) rfl rfl BitVec.and_allOnes BitVec.and_zero BitVec.and_zero BitVec.and_zero BitVec.and_allOnes)

theorem MatchesRow.jleKJmp (dst : Reg) (imm : BitVec 32) (offset : BitVec 16) : MatchesRow.Statement (.jleKJmp dst imm offset) :=
  matchesRow_basic rfl rfl rfl
    (word_matches (m := ⟨BitVec.allOnes 8, 0, BitVec.allOnes 4, 0, 0⟩) (g := ⟨0xb5, 0x0, 0x0, 0x0, 0x0⟩) rfl rfl BitVec.and_allOnes BitVec.and_zero BitVec.and_allOnes BitVec.and_zero BitVec.and_zero)

theorem MatchesRow.jleXJmp (dst src : Reg) (offset : BitVec 16) : MatchesRow.Statement (.jleXJmp dst src offset) :=
  matchesRow_basic rfl rfl rfl
    (word_matches (m := ⟨BitVec.allOnes 8, 0, 0, 0, BitVec.allOnes 32⟩) (g := ⟨0xbd, 0x0, 0x0, 0x0, 0x0⟩) rfl rfl BitVec.and_allOnes BitVec.and_zero BitVec.and_zero BitVec.and_zero BitVec.and_allOnes)

theorem MatchesRow.jsltKJmp (dst : Reg) (imm : BitVec 32) (offset : BitVec 16) : MatchesRow.Statement (.jsltKJmp dst imm offset) :=
  matchesRow_basic rfl rfl rfl
    (word_matches (m := ⟨BitVec.allOnes 8, 0, BitVec.allOnes 4, 0, 0⟩) (g := ⟨0xc5, 0x0, 0x0, 0x0, 0x0⟩) rfl rfl BitVec.and_allOnes BitVec.and_zero BitVec.and_allOnes BitVec.and_zero BitVec.and_zero)

theorem MatchesRow.jsltXJmp (dst src : Reg) (offset : BitVec 16) : MatchesRow.Statement (.jsltXJmp dst src offset) :=
  matchesRow_basic rfl rfl rfl
    (word_matches (m := ⟨BitVec.allOnes 8, 0, 0, 0, BitVec.allOnes 32⟩) (g := ⟨0xcd, 0x0, 0x0, 0x0, 0x0⟩) rfl rfl BitVec.and_allOnes BitVec.and_zero BitVec.and_zero BitVec.and_zero BitVec.and_allOnes)

theorem MatchesRow.jsleKJmp (dst : Reg) (imm : BitVec 32) (offset : BitVec 16) : MatchesRow.Statement (.jsleKJmp dst imm offset) :=
  matchesRow_basic rfl rfl rfl
    (word_matches (m := ⟨BitVec.allOnes 8, 0, BitVec.allOnes 4, 0, 0⟩) (g := ⟨0xd5, 0x0, 0x0, 0x0, 0x0⟩) rfl rfl BitVec.and_allOnes BitVec.and_zero BitVec.and_allOnes BitVec.and_zero BitVec.and_zero)

theorem MatchesRow.jsleXJmp (dst src : Reg) (offset : BitVec 16) : MatchesRow.Statement (.jsleXJmp dst src offset) :=
  matchesRow_basic rfl rfl rfl
    (word_matches (m := ⟨BitVec.allOnes 8, 0, 0, 0, BitVec.allOnes 32⟩) (g := ⟨0xdd, 0x0, 0x0, 0x0, 0x0⟩) rfl rfl BitVec.and_allOnes BitVec.and_zero BitVec.and_zero BitVec.and_zero BitVec.and_allOnes)

theorem MatchesRow.callHelperKJmp (imm : BitVec 32) : MatchesRow.Statement (.callHelperKJmp imm) :=
  matchesRow_basic rfl rfl rfl
    (word_matches (m := ⟨BitVec.allOnes 8, BitVec.allOnes 4, BitVec.allOnes 4, BitVec.allOnes 16, 0⟩) (g := ⟨0x85, 0x0, 0x0, 0x0, 0x0⟩) rfl rfl BitVec.and_allOnes BitVec.and_allOnes BitVec.and_allOnes BitVec.and_allOnes BitVec.and_zero)

theorem MatchesRow.callLocalKJmp (imm : BitVec 32) : MatchesRow.Statement (.callLocalKJmp imm) :=
  matchesRow_basic rfl rfl rfl
    (word_matches (m := ⟨BitVec.allOnes 8, BitVec.allOnes 4, BitVec.allOnes 4, BitVec.allOnes 16, 0⟩) (g := ⟨0x85, 0x0, 0x1, 0x0, 0x0⟩) rfl rfl BitVec.and_allOnes BitVec.and_allOnes BitVec.and_allOnes BitVec.and_allOnes BitVec.and_zero)

theorem MatchesRow.callBtfKJmp (imm : BitVec 32) : MatchesRow.Statement (.callBtfKJmp imm) :=
  matchesRow_basic rfl rfl rfl
    (word_matches (m := ⟨BitVec.allOnes 8, BitVec.allOnes 4, BitVec.allOnes 4, BitVec.allOnes 16, 0⟩) (g := ⟨0x85, 0x0, 0x2, 0x0, 0x0⟩) rfl rfl BitVec.and_allOnes BitVec.and_allOnes BitVec.and_allOnes BitVec.and_allOnes BitVec.and_zero)

theorem MatchesRow.exitKJmp : MatchesRow.Statement .exitKJmp :=
  matchesRow_basic rfl rfl rfl
    (word_matches (m := ⟨BitVec.allOnes 8, BitVec.allOnes 4, BitVec.allOnes 4, BitVec.allOnes 16, BitVec.allOnes 32⟩) (g := ⟨0x95, 0x0, 0x0, 0x0, 0x0⟩) rfl rfl BitVec.and_allOnes BitVec.and_allOnes BitVec.and_allOnes BitVec.and_allOnes BitVec.and_allOnes)

theorem MatchesRow.jaKJmp32 (imm : BitVec 32) : MatchesRow.Statement (.jaKJmp32 imm) :=
  matchesRow_basic rfl rfl rfl
    (word_matches (m := ⟨BitVec.allOnes 8, BitVec.allOnes 4, BitVec.allOnes 4, BitVec.allOnes 16, 0⟩) (g := ⟨0x6, 0x0, 0x0, 0x0, 0x0⟩) rfl rfl BitVec.and_allOnes BitVec.and_allOnes BitVec.and_allOnes BitVec.and_allOnes BitVec.and_zero)

theorem MatchesRow.jeqKJmp32 (dst : Reg) (imm : BitVec 32) (offset : BitVec 16) : MatchesRow.Statement (.jeqKJmp32 dst imm offset) :=
  matchesRow_basic rfl rfl rfl
    (word_matches (m := ⟨BitVec.allOnes 8, 0, BitVec.allOnes 4, 0, 0⟩) (g := ⟨0x16, 0x0, 0x0, 0x0, 0x0⟩) rfl rfl BitVec.and_allOnes BitVec.and_zero BitVec.and_allOnes BitVec.and_zero BitVec.and_zero)

theorem MatchesRow.jeqXJmp32 (dst src : Reg) (offset : BitVec 16) : MatchesRow.Statement (.jeqXJmp32 dst src offset) :=
  matchesRow_basic rfl rfl rfl
    (word_matches (m := ⟨BitVec.allOnes 8, 0, 0, 0, BitVec.allOnes 32⟩) (g := ⟨0x1e, 0x0, 0x0, 0x0, 0x0⟩) rfl rfl BitVec.and_allOnes BitVec.and_zero BitVec.and_zero BitVec.and_zero BitVec.and_allOnes)

theorem MatchesRow.jgtKJmp32 (dst : Reg) (imm : BitVec 32) (offset : BitVec 16) : MatchesRow.Statement (.jgtKJmp32 dst imm offset) :=
  matchesRow_basic rfl rfl rfl
    (word_matches (m := ⟨BitVec.allOnes 8, 0, BitVec.allOnes 4, 0, 0⟩) (g := ⟨0x26, 0x0, 0x0, 0x0, 0x0⟩) rfl rfl BitVec.and_allOnes BitVec.and_zero BitVec.and_allOnes BitVec.and_zero BitVec.and_zero)

theorem MatchesRow.jgtXJmp32 (dst src : Reg) (offset : BitVec 16) : MatchesRow.Statement (.jgtXJmp32 dst src offset) :=
  matchesRow_basic rfl rfl rfl
    (word_matches (m := ⟨BitVec.allOnes 8, 0, 0, 0, BitVec.allOnes 32⟩) (g := ⟨0x2e, 0x0, 0x0, 0x0, 0x0⟩) rfl rfl BitVec.and_allOnes BitVec.and_zero BitVec.and_zero BitVec.and_zero BitVec.and_allOnes)

theorem MatchesRow.jgeKJmp32 (dst : Reg) (imm : BitVec 32) (offset : BitVec 16) : MatchesRow.Statement (.jgeKJmp32 dst imm offset) :=
  matchesRow_basic rfl rfl rfl
    (word_matches (m := ⟨BitVec.allOnes 8, 0, BitVec.allOnes 4, 0, 0⟩) (g := ⟨0x36, 0x0, 0x0, 0x0, 0x0⟩) rfl rfl BitVec.and_allOnes BitVec.and_zero BitVec.and_allOnes BitVec.and_zero BitVec.and_zero)

theorem MatchesRow.jgeXJmp32 (dst src : Reg) (offset : BitVec 16) : MatchesRow.Statement (.jgeXJmp32 dst src offset) :=
  matchesRow_basic rfl rfl rfl
    (word_matches (m := ⟨BitVec.allOnes 8, 0, 0, 0, BitVec.allOnes 32⟩) (g := ⟨0x3e, 0x0, 0x0, 0x0, 0x0⟩) rfl rfl BitVec.and_allOnes BitVec.and_zero BitVec.and_zero BitVec.and_zero BitVec.and_allOnes)

theorem MatchesRow.jsetKJmp32 (dst : Reg) (imm : BitVec 32) (offset : BitVec 16) : MatchesRow.Statement (.jsetKJmp32 dst imm offset) :=
  matchesRow_basic rfl rfl rfl
    (word_matches (m := ⟨BitVec.allOnes 8, 0, BitVec.allOnes 4, 0, 0⟩) (g := ⟨0x46, 0x0, 0x0, 0x0, 0x0⟩) rfl rfl BitVec.and_allOnes BitVec.and_zero BitVec.and_allOnes BitVec.and_zero BitVec.and_zero)

theorem MatchesRow.jsetXJmp32 (dst src : Reg) (offset : BitVec 16) : MatchesRow.Statement (.jsetXJmp32 dst src offset) :=
  matchesRow_basic rfl rfl rfl
    (word_matches (m := ⟨BitVec.allOnes 8, 0, 0, 0, BitVec.allOnes 32⟩) (g := ⟨0x4e, 0x0, 0x0, 0x0, 0x0⟩) rfl rfl BitVec.and_allOnes BitVec.and_zero BitVec.and_zero BitVec.and_zero BitVec.and_allOnes)

theorem MatchesRow.jneKJmp32 (dst : Reg) (imm : BitVec 32) (offset : BitVec 16) : MatchesRow.Statement (.jneKJmp32 dst imm offset) :=
  matchesRow_basic rfl rfl rfl
    (word_matches (m := ⟨BitVec.allOnes 8, 0, BitVec.allOnes 4, 0, 0⟩) (g := ⟨0x56, 0x0, 0x0, 0x0, 0x0⟩) rfl rfl BitVec.and_allOnes BitVec.and_zero BitVec.and_allOnes BitVec.and_zero BitVec.and_zero)

theorem MatchesRow.jneXJmp32 (dst src : Reg) (offset : BitVec 16) : MatchesRow.Statement (.jneXJmp32 dst src offset) :=
  matchesRow_basic rfl rfl rfl
    (word_matches (m := ⟨BitVec.allOnes 8, 0, 0, 0, BitVec.allOnes 32⟩) (g := ⟨0x5e, 0x0, 0x0, 0x0, 0x0⟩) rfl rfl BitVec.and_allOnes BitVec.and_zero BitVec.and_zero BitVec.and_zero BitVec.and_allOnes)

theorem MatchesRow.jsgtKJmp32 (dst : Reg) (imm : BitVec 32) (offset : BitVec 16) : MatchesRow.Statement (.jsgtKJmp32 dst imm offset) :=
  matchesRow_basic rfl rfl rfl
    (word_matches (m := ⟨BitVec.allOnes 8, 0, BitVec.allOnes 4, 0, 0⟩) (g := ⟨0x66, 0x0, 0x0, 0x0, 0x0⟩) rfl rfl BitVec.and_allOnes BitVec.and_zero BitVec.and_allOnes BitVec.and_zero BitVec.and_zero)

theorem MatchesRow.jsgtXJmp32 (dst src : Reg) (offset : BitVec 16) : MatchesRow.Statement (.jsgtXJmp32 dst src offset) :=
  matchesRow_basic rfl rfl rfl
    (word_matches (m := ⟨BitVec.allOnes 8, 0, 0, 0, BitVec.allOnes 32⟩) (g := ⟨0x6e, 0x0, 0x0, 0x0, 0x0⟩) rfl rfl BitVec.and_allOnes BitVec.and_zero BitVec.and_zero BitVec.and_zero BitVec.and_allOnes)

theorem MatchesRow.jsgeKJmp32 (dst : Reg) (imm : BitVec 32) (offset : BitVec 16) : MatchesRow.Statement (.jsgeKJmp32 dst imm offset) :=
  matchesRow_basic rfl rfl rfl
    (word_matches (m := ⟨BitVec.allOnes 8, 0, BitVec.allOnes 4, 0, 0⟩) (g := ⟨0x76, 0x0, 0x0, 0x0, 0x0⟩) rfl rfl BitVec.and_allOnes BitVec.and_zero BitVec.and_allOnes BitVec.and_zero BitVec.and_zero)

theorem MatchesRow.jsgeXJmp32 (dst src : Reg) (offset : BitVec 16) : MatchesRow.Statement (.jsgeXJmp32 dst src offset) :=
  matchesRow_basic rfl rfl rfl
    (word_matches (m := ⟨BitVec.allOnes 8, 0, 0, 0, BitVec.allOnes 32⟩) (g := ⟨0x7e, 0x0, 0x0, 0x0, 0x0⟩) rfl rfl BitVec.and_allOnes BitVec.and_zero BitVec.and_zero BitVec.and_zero BitVec.and_allOnes)

theorem MatchesRow.jltKJmp32 (dst : Reg) (imm : BitVec 32) (offset : BitVec 16) : MatchesRow.Statement (.jltKJmp32 dst imm offset) :=
  matchesRow_basic rfl rfl rfl
    (word_matches (m := ⟨BitVec.allOnes 8, 0, BitVec.allOnes 4, 0, 0⟩) (g := ⟨0xa6, 0x0, 0x0, 0x0, 0x0⟩) rfl rfl BitVec.and_allOnes BitVec.and_zero BitVec.and_allOnes BitVec.and_zero BitVec.and_zero)

theorem MatchesRow.jltXJmp32 (dst src : Reg) (offset : BitVec 16) : MatchesRow.Statement (.jltXJmp32 dst src offset) :=
  matchesRow_basic rfl rfl rfl
    (word_matches (m := ⟨BitVec.allOnes 8, 0, 0, 0, BitVec.allOnes 32⟩) (g := ⟨0xae, 0x0, 0x0, 0x0, 0x0⟩) rfl rfl BitVec.and_allOnes BitVec.and_zero BitVec.and_zero BitVec.and_zero BitVec.and_allOnes)

theorem MatchesRow.jleKJmp32 (dst : Reg) (imm : BitVec 32) (offset : BitVec 16) : MatchesRow.Statement (.jleKJmp32 dst imm offset) :=
  matchesRow_basic rfl rfl rfl
    (word_matches (m := ⟨BitVec.allOnes 8, 0, BitVec.allOnes 4, 0, 0⟩) (g := ⟨0xb6, 0x0, 0x0, 0x0, 0x0⟩) rfl rfl BitVec.and_allOnes BitVec.and_zero BitVec.and_allOnes BitVec.and_zero BitVec.and_zero)

theorem MatchesRow.jleXJmp32 (dst src : Reg) (offset : BitVec 16) : MatchesRow.Statement (.jleXJmp32 dst src offset) :=
  matchesRow_basic rfl rfl rfl
    (word_matches (m := ⟨BitVec.allOnes 8, 0, 0, 0, BitVec.allOnes 32⟩) (g := ⟨0xbe, 0x0, 0x0, 0x0, 0x0⟩) rfl rfl BitVec.and_allOnes BitVec.and_zero BitVec.and_zero BitVec.and_zero BitVec.and_allOnes)

theorem MatchesRow.jsltKJmp32 (dst : Reg) (imm : BitVec 32) (offset : BitVec 16) : MatchesRow.Statement (.jsltKJmp32 dst imm offset) :=
  matchesRow_basic rfl rfl rfl
    (word_matches (m := ⟨BitVec.allOnes 8, 0, BitVec.allOnes 4, 0, 0⟩) (g := ⟨0xc6, 0x0, 0x0, 0x0, 0x0⟩) rfl rfl BitVec.and_allOnes BitVec.and_zero BitVec.and_allOnes BitVec.and_zero BitVec.and_zero)

theorem MatchesRow.jsltXJmp32 (dst src : Reg) (offset : BitVec 16) : MatchesRow.Statement (.jsltXJmp32 dst src offset) :=
  matchesRow_basic rfl rfl rfl
    (word_matches (m := ⟨BitVec.allOnes 8, 0, 0, 0, BitVec.allOnes 32⟩) (g := ⟨0xce, 0x0, 0x0, 0x0, 0x0⟩) rfl rfl BitVec.and_allOnes BitVec.and_zero BitVec.and_zero BitVec.and_zero BitVec.and_allOnes)

theorem MatchesRow.jsleKJmp32 (dst : Reg) (imm : BitVec 32) (offset : BitVec 16) : MatchesRow.Statement (.jsleKJmp32 dst imm offset) :=
  matchesRow_basic rfl rfl rfl
    (word_matches (m := ⟨BitVec.allOnes 8, 0, BitVec.allOnes 4, 0, 0⟩) (g := ⟨0xd6, 0x0, 0x0, 0x0, 0x0⟩) rfl rfl BitVec.and_allOnes BitVec.and_zero BitVec.and_allOnes BitVec.and_zero BitVec.and_zero)

theorem MatchesRow.jsleXJmp32 (dst src : Reg) (offset : BitVec 16) : MatchesRow.Statement (.jsleXJmp32 dst src offset) :=
  matchesRow_basic rfl rfl rfl
    (word_matches (m := ⟨BitVec.allOnes 8, 0, 0, 0, BitVec.allOnes 32⟩) (g := ⟨0xde, 0x0, 0x0, 0x0, 0x0⟩) rfl rfl BitVec.and_allOnes BitVec.and_zero BitVec.and_zero BitVec.and_zero BitVec.and_allOnes)

theorem MatchesRow.memWLdx (dst src : Reg) (offset : BitVec 16) : MatchesRow.Statement (.memWLdx dst src offset) :=
  matchesRow_basic rfl rfl rfl
    (word_matches (m := ⟨BitVec.allOnes 8, 0, 0, 0, BitVec.allOnes 32⟩) (g := ⟨0x61, 0x0, 0x0, 0x0, 0x0⟩) rfl rfl BitVec.and_allOnes BitVec.and_zero BitVec.and_zero BitVec.and_zero BitVec.and_allOnes)

theorem MatchesRow.memHLdx (dst src : Reg) (offset : BitVec 16) : MatchesRow.Statement (.memHLdx dst src offset) :=
  matchesRow_basic rfl rfl rfl
    (word_matches (m := ⟨BitVec.allOnes 8, 0, 0, 0, BitVec.allOnes 32⟩) (g := ⟨0x69, 0x0, 0x0, 0x0, 0x0⟩) rfl rfl BitVec.and_allOnes BitVec.and_zero BitVec.and_zero BitVec.and_zero BitVec.and_allOnes)

theorem MatchesRow.memBLdx (dst src : Reg) (offset : BitVec 16) : MatchesRow.Statement (.memBLdx dst src offset) :=
  matchesRow_basic rfl rfl rfl
    (word_matches (m := ⟨BitVec.allOnes 8, 0, 0, 0, BitVec.allOnes 32⟩) (g := ⟨0x71, 0x0, 0x0, 0x0, 0x0⟩) rfl rfl BitVec.and_allOnes BitVec.and_zero BitVec.and_zero BitVec.and_zero BitVec.and_allOnes)

theorem MatchesRow.memDwLdx (dst src : Reg) (offset : BitVec 16) : MatchesRow.Statement (.memDwLdx dst src offset) :=
  matchesRow_basic rfl rfl rfl
    (word_matches (m := ⟨BitVec.allOnes 8, 0, 0, 0, BitVec.allOnes 32⟩) (g := ⟨0x79, 0x0, 0x0, 0x0, 0x0⟩) rfl rfl BitVec.and_allOnes BitVec.and_zero BitVec.and_zero BitVec.and_zero BitVec.and_allOnes)

theorem MatchesRow.memWSt (dst : Reg) (offset : BitVec 16) (imm : BitVec 32) : MatchesRow.Statement (.memWSt dst offset imm) :=
  matchesRow_basic rfl rfl rfl
    (word_matches (m := ⟨BitVec.allOnes 8, 0, BitVec.allOnes 4, 0, 0⟩) (g := ⟨0x62, 0x0, 0x0, 0x0, 0x0⟩) rfl rfl BitVec.and_allOnes BitVec.and_zero BitVec.and_allOnes BitVec.and_zero BitVec.and_zero)

theorem MatchesRow.memHSt (dst : Reg) (offset : BitVec 16) (imm : BitVec 32) : MatchesRow.Statement (.memHSt dst offset imm) :=
  matchesRow_basic rfl rfl rfl
    (word_matches (m := ⟨BitVec.allOnes 8, 0, BitVec.allOnes 4, 0, 0⟩) (g := ⟨0x6a, 0x0, 0x0, 0x0, 0x0⟩) rfl rfl BitVec.and_allOnes BitVec.and_zero BitVec.and_allOnes BitVec.and_zero BitVec.and_zero)

theorem MatchesRow.memBSt (dst : Reg) (offset : BitVec 16) (imm : BitVec 32) : MatchesRow.Statement (.memBSt dst offset imm) :=
  matchesRow_basic rfl rfl rfl
    (word_matches (m := ⟨BitVec.allOnes 8, 0, BitVec.allOnes 4, 0, 0⟩) (g := ⟨0x72, 0x0, 0x0, 0x0, 0x0⟩) rfl rfl BitVec.and_allOnes BitVec.and_zero BitVec.and_allOnes BitVec.and_zero BitVec.and_zero)

theorem MatchesRow.memDwSt (dst : Reg) (offset : BitVec 16) (imm : BitVec 32) : MatchesRow.Statement (.memDwSt dst offset imm) :=
  matchesRow_basic rfl rfl rfl
    (word_matches (m := ⟨BitVec.allOnes 8, 0, BitVec.allOnes 4, 0, 0⟩) (g := ⟨0x7a, 0x0, 0x0, 0x0, 0x0⟩) rfl rfl BitVec.and_allOnes BitVec.and_zero BitVec.and_allOnes BitVec.and_zero BitVec.and_zero)

theorem MatchesRow.memWStx (dst src : Reg) (offset : BitVec 16) : MatchesRow.Statement (.memWStx dst src offset) :=
  matchesRow_basic rfl rfl rfl
    (word_matches (m := ⟨BitVec.allOnes 8, 0, 0, 0, BitVec.allOnes 32⟩) (g := ⟨0x63, 0x0, 0x0, 0x0, 0x0⟩) rfl rfl BitVec.and_allOnes BitVec.and_zero BitVec.and_zero BitVec.and_zero BitVec.and_allOnes)

theorem MatchesRow.memHStx (dst src : Reg) (offset : BitVec 16) : MatchesRow.Statement (.memHStx dst src offset) :=
  matchesRow_basic rfl rfl rfl
    (word_matches (m := ⟨BitVec.allOnes 8, 0, 0, 0, BitVec.allOnes 32⟩) (g := ⟨0x6b, 0x0, 0x0, 0x0, 0x0⟩) rfl rfl BitVec.and_allOnes BitVec.and_zero BitVec.and_zero BitVec.and_zero BitVec.and_allOnes)

theorem MatchesRow.memBStx (dst src : Reg) (offset : BitVec 16) : MatchesRow.Statement (.memBStx dst src offset) :=
  matchesRow_basic rfl rfl rfl
    (word_matches (m := ⟨BitVec.allOnes 8, 0, 0, 0, BitVec.allOnes 32⟩) (g := ⟨0x73, 0x0, 0x0, 0x0, 0x0⟩) rfl rfl BitVec.and_allOnes BitVec.and_zero BitVec.and_zero BitVec.and_zero BitVec.and_allOnes)

theorem MatchesRow.memDwStx (dst src : Reg) (offset : BitVec 16) : MatchesRow.Statement (.memDwStx dst src offset) :=
  matchesRow_basic rfl rfl rfl
    (word_matches (m := ⟨BitVec.allOnes 8, 0, 0, 0, BitVec.allOnes 32⟩) (g := ⟨0x7b, 0x0, 0x0, 0x0, 0x0⟩) rfl rfl BitVec.and_allOnes BitVec.and_zero BitVec.and_zero BitVec.and_zero BitVec.and_allOnes)

theorem MatchesRow.memsxWLdx (dst src : Reg) (offset : BitVec 16) : MatchesRow.Statement (.memsxWLdx dst src offset) :=
  matchesRow_basic rfl rfl rfl
    (word_matches (m := ⟨BitVec.allOnes 8, 0, 0, 0, BitVec.allOnes 32⟩) (g := ⟨0x81, 0x0, 0x0, 0x0, 0x0⟩) rfl rfl BitVec.and_allOnes BitVec.and_zero BitVec.and_zero BitVec.and_zero BitVec.and_allOnes)

theorem MatchesRow.memsxHLdx (dst src : Reg) (offset : BitVec 16) : MatchesRow.Statement (.memsxHLdx dst src offset) :=
  matchesRow_basic rfl rfl rfl
    (word_matches (m := ⟨BitVec.allOnes 8, 0, 0, 0, BitVec.allOnes 32⟩) (g := ⟨0x89, 0x0, 0x0, 0x0, 0x0⟩) rfl rfl BitVec.and_allOnes BitVec.and_zero BitVec.and_zero BitVec.and_zero BitVec.and_allOnes)

theorem MatchesRow.memsxBLdx (dst src : Reg) (offset : BitVec 16) : MatchesRow.Statement (.memsxBLdx dst src offset) :=
  matchesRow_basic rfl rfl rfl
    (word_matches (m := ⟨BitVec.allOnes 8, 0, 0, 0, BitVec.allOnes 32⟩) (g := ⟨0x91, 0x0, 0x0, 0x0, 0x0⟩) rfl rfl BitVec.and_allOnes BitVec.and_zero BitVec.and_zero BitVec.and_zero BitVec.and_allOnes)

theorem MatchesRow.atomicWStxAdd (dst src : Reg) (offset : BitVec 16) : MatchesRow.Statement (.atomicWStxAdd dst src offset) :=
  matchesRow_basic rfl rfl rfl
    (word_matches (m := ⟨BitVec.allOnes 8, 0, 0, 0, BitVec.allOnes 32⟩) (g := ⟨0xc3, 0x0, 0x0, 0x0, 0x0⟩) rfl rfl BitVec.and_allOnes BitVec.and_zero BitVec.and_zero BitVec.and_zero BitVec.and_allOnes)

theorem MatchesRow.atomicDwStxAdd (dst src : Reg) (offset : BitVec 16) : MatchesRow.Statement (.atomicDwStxAdd dst src offset) :=
  matchesRow_basic rfl rfl rfl
    (word_matches (m := ⟨BitVec.allOnes 8, 0, 0, 0, BitVec.allOnes 32⟩) (g := ⟨0xdb, 0x0, 0x0, 0x0, 0x0⟩) rfl rfl BitVec.and_allOnes BitVec.and_zero BitVec.and_zero BitVec.and_zero BitVec.and_allOnes)

theorem MatchesRow.atomicWStxAddFetch (dst src : Reg) (offset : BitVec 16) : MatchesRow.Statement (.atomicWStxAddFetch dst src offset) :=
  matchesRow_basic rfl rfl rfl
    (word_matches (m := ⟨BitVec.allOnes 8, 0, 0, 0, BitVec.allOnes 32⟩) (g := ⟨0xc3, 0x0, 0x0, 0x0, 0x1⟩) rfl rfl BitVec.and_allOnes BitVec.and_zero BitVec.and_zero BitVec.and_zero BitVec.and_allOnes)

theorem MatchesRow.atomicDwStxAddFetch (dst src : Reg) (offset : BitVec 16) : MatchesRow.Statement (.atomicDwStxAddFetch dst src offset) :=
  matchesRow_basic rfl rfl rfl
    (word_matches (m := ⟨BitVec.allOnes 8, 0, 0, 0, BitVec.allOnes 32⟩) (g := ⟨0xdb, 0x0, 0x0, 0x0, 0x1⟩) rfl rfl BitVec.and_allOnes BitVec.and_zero BitVec.and_zero BitVec.and_zero BitVec.and_allOnes)

theorem MatchesRow.atomicWStxOr (dst src : Reg) (offset : BitVec 16) : MatchesRow.Statement (.atomicWStxOr dst src offset) :=
  matchesRow_basic rfl rfl rfl
    (word_matches (m := ⟨BitVec.allOnes 8, 0, 0, 0, BitVec.allOnes 32⟩) (g := ⟨0xc3, 0x0, 0x0, 0x0, 0x40⟩) rfl rfl BitVec.and_allOnes BitVec.and_zero BitVec.and_zero BitVec.and_zero BitVec.and_allOnes)

theorem MatchesRow.atomicDwStxOr (dst src : Reg) (offset : BitVec 16) : MatchesRow.Statement (.atomicDwStxOr dst src offset) :=
  matchesRow_basic rfl rfl rfl
    (word_matches (m := ⟨BitVec.allOnes 8, 0, 0, 0, BitVec.allOnes 32⟩) (g := ⟨0xdb, 0x0, 0x0, 0x0, 0x40⟩) rfl rfl BitVec.and_allOnes BitVec.and_zero BitVec.and_zero BitVec.and_zero BitVec.and_allOnes)

theorem MatchesRow.atomicWStxOrFetch (dst src : Reg) (offset : BitVec 16) : MatchesRow.Statement (.atomicWStxOrFetch dst src offset) :=
  matchesRow_basic rfl rfl rfl
    (word_matches (m := ⟨BitVec.allOnes 8, 0, 0, 0, BitVec.allOnes 32⟩) (g := ⟨0xc3, 0x0, 0x0, 0x0, 0x41⟩) rfl rfl BitVec.and_allOnes BitVec.and_zero BitVec.and_zero BitVec.and_zero BitVec.and_allOnes)

theorem MatchesRow.atomicDwStxOrFetch (dst src : Reg) (offset : BitVec 16) : MatchesRow.Statement (.atomicDwStxOrFetch dst src offset) :=
  matchesRow_basic rfl rfl rfl
    (word_matches (m := ⟨BitVec.allOnes 8, 0, 0, 0, BitVec.allOnes 32⟩) (g := ⟨0xdb, 0x0, 0x0, 0x0, 0x41⟩) rfl rfl BitVec.and_allOnes BitVec.and_zero BitVec.and_zero BitVec.and_zero BitVec.and_allOnes)

theorem MatchesRow.atomicWStxAnd (dst src : Reg) (offset : BitVec 16) : MatchesRow.Statement (.atomicWStxAnd dst src offset) :=
  matchesRow_basic rfl rfl rfl
    (word_matches (m := ⟨BitVec.allOnes 8, 0, 0, 0, BitVec.allOnes 32⟩) (g := ⟨0xc3, 0x0, 0x0, 0x0, 0x50⟩) rfl rfl BitVec.and_allOnes BitVec.and_zero BitVec.and_zero BitVec.and_zero BitVec.and_allOnes)

theorem MatchesRow.atomicDwStxAnd (dst src : Reg) (offset : BitVec 16) : MatchesRow.Statement (.atomicDwStxAnd dst src offset) :=
  matchesRow_basic rfl rfl rfl
    (word_matches (m := ⟨BitVec.allOnes 8, 0, 0, 0, BitVec.allOnes 32⟩) (g := ⟨0xdb, 0x0, 0x0, 0x0, 0x50⟩) rfl rfl BitVec.and_allOnes BitVec.and_zero BitVec.and_zero BitVec.and_zero BitVec.and_allOnes)

theorem MatchesRow.atomicWStxAndFetch (dst src : Reg) (offset : BitVec 16) : MatchesRow.Statement (.atomicWStxAndFetch dst src offset) :=
  matchesRow_basic rfl rfl rfl
    (word_matches (m := ⟨BitVec.allOnes 8, 0, 0, 0, BitVec.allOnes 32⟩) (g := ⟨0xc3, 0x0, 0x0, 0x0, 0x51⟩) rfl rfl BitVec.and_allOnes BitVec.and_zero BitVec.and_zero BitVec.and_zero BitVec.and_allOnes)

theorem MatchesRow.atomicDwStxAndFetch (dst src : Reg) (offset : BitVec 16) : MatchesRow.Statement (.atomicDwStxAndFetch dst src offset) :=
  matchesRow_basic rfl rfl rfl
    (word_matches (m := ⟨BitVec.allOnes 8, 0, 0, 0, BitVec.allOnes 32⟩) (g := ⟨0xdb, 0x0, 0x0, 0x0, 0x51⟩) rfl rfl BitVec.and_allOnes BitVec.and_zero BitVec.and_zero BitVec.and_zero BitVec.and_allOnes)

theorem MatchesRow.atomicWStxXor (dst src : Reg) (offset : BitVec 16) : MatchesRow.Statement (.atomicWStxXor dst src offset) :=
  matchesRow_basic rfl rfl rfl
    (word_matches (m := ⟨BitVec.allOnes 8, 0, 0, 0, BitVec.allOnes 32⟩) (g := ⟨0xc3, 0x0, 0x0, 0x0, 0xa0⟩) rfl rfl BitVec.and_allOnes BitVec.and_zero BitVec.and_zero BitVec.and_zero BitVec.and_allOnes)

theorem MatchesRow.atomicDwStxXor (dst src : Reg) (offset : BitVec 16) : MatchesRow.Statement (.atomicDwStxXor dst src offset) :=
  matchesRow_basic rfl rfl rfl
    (word_matches (m := ⟨BitVec.allOnes 8, 0, 0, 0, BitVec.allOnes 32⟩) (g := ⟨0xdb, 0x0, 0x0, 0x0, 0xa0⟩) rfl rfl BitVec.and_allOnes BitVec.and_zero BitVec.and_zero BitVec.and_zero BitVec.and_allOnes)

theorem MatchesRow.atomicWStxXorFetch (dst src : Reg) (offset : BitVec 16) : MatchesRow.Statement (.atomicWStxXorFetch dst src offset) :=
  matchesRow_basic rfl rfl rfl
    (word_matches (m := ⟨BitVec.allOnes 8, 0, 0, 0, BitVec.allOnes 32⟩) (g := ⟨0xc3, 0x0, 0x0, 0x0, 0xa1⟩) rfl rfl BitVec.and_allOnes BitVec.and_zero BitVec.and_zero BitVec.and_zero BitVec.and_allOnes)

theorem MatchesRow.atomicDwStxXorFetch (dst src : Reg) (offset : BitVec 16) : MatchesRow.Statement (.atomicDwStxXorFetch dst src offset) :=
  matchesRow_basic rfl rfl rfl
    (word_matches (m := ⟨BitVec.allOnes 8, 0, 0, 0, BitVec.allOnes 32⟩) (g := ⟨0xdb, 0x0, 0x0, 0x0, 0xa1⟩) rfl rfl BitVec.and_allOnes BitVec.and_zero BitVec.and_zero BitVec.and_zero BitVec.and_allOnes)

theorem MatchesRow.atomicWStxXchg (dst src : Reg) (offset : BitVec 16) : MatchesRow.Statement (.atomicWStxXchg dst src offset) :=
  matchesRow_basic rfl rfl rfl
    (word_matches (m := ⟨BitVec.allOnes 8, 0, 0, 0, BitVec.allOnes 32⟩) (g := ⟨0xc3, 0x0, 0x0, 0x0, 0xe1⟩) rfl rfl BitVec.and_allOnes BitVec.and_zero BitVec.and_zero BitVec.and_zero BitVec.and_allOnes)

theorem MatchesRow.atomicDwStxXchg (dst src : Reg) (offset : BitVec 16) : MatchesRow.Statement (.atomicDwStxXchg dst src offset) :=
  matchesRow_basic rfl rfl rfl
    (word_matches (m := ⟨BitVec.allOnes 8, 0, 0, 0, BitVec.allOnes 32⟩) (g := ⟨0xdb, 0x0, 0x0, 0x0, 0xe1⟩) rfl rfl BitVec.and_allOnes BitVec.and_zero BitVec.and_zero BitVec.and_zero BitVec.and_allOnes)

theorem MatchesRow.atomicWStxCmpxchg (dst src : Reg) (offset : BitVec 16) : MatchesRow.Statement (.atomicWStxCmpxchg dst src offset) :=
  matchesRow_basic rfl rfl rfl
    (word_matches (m := ⟨BitVec.allOnes 8, 0, 0, 0, BitVec.allOnes 32⟩) (g := ⟨0xc3, 0x0, 0x0, 0x0, 0xf1⟩) rfl rfl BitVec.and_allOnes BitVec.and_zero BitVec.and_zero BitVec.and_zero BitVec.and_allOnes)

theorem MatchesRow.atomicDwStxCmpxchg (dst src : Reg) (offset : BitVec 16) : MatchesRow.Statement (.atomicDwStxCmpxchg dst src offset) :=
  matchesRow_basic rfl rfl rfl
    (word_matches (m := ⟨BitVec.allOnes 8, 0, 0, 0, BitVec.allOnes 32⟩) (g := ⟨0xdb, 0x0, 0x0, 0x0, 0xf1⟩) rfl rfl BitVec.and_allOnes BitVec.and_zero BitVec.and_zero BitVec.and_zero BitVec.and_allOnes)

theorem MatchesRow.immDwLd0 (dst : Reg) (imm nextImm : BitVec 32) : MatchesRow.Statement (.immDwLd0 dst imm nextImm) :=
  matchesRow_wide rfl rfl rfl
    (word_matches (m := ⟨BitVec.allOnes 8, 0, BitVec.allOnes 4, BitVec.allOnes 16, 0⟩) (g := ⟨0x18, 0x0, 0x0, 0x0, 0x0⟩) rfl rfl BitVec.and_allOnes BitVec.and_zero BitVec.and_allOnes BitVec.and_allOnes BitVec.and_zero)
    (word_matches (m := ⟨BitVec.allOnes 8, BitVec.allOnes 4, BitVec.allOnes 4, BitVec.allOnes 16, 0⟩) (g := ⟨0x0, 0x0, 0x0, 0x0, 0x0⟩) rfl rfl BitVec.and_allOnes BitVec.and_allOnes BitVec.and_allOnes BitVec.and_allOnes BitVec.and_zero)

theorem MatchesRow.immDwLd1 (dst : Reg) (imm : BitVec 32) : MatchesRow.Statement (.immDwLd1 dst imm) :=
  matchesRow_wide rfl rfl rfl
    (word_matches (m := ⟨BitVec.allOnes 8, 0, BitVec.allOnes 4, BitVec.allOnes 16, 0⟩) (g := ⟨0x18, 0x0, 0x1, 0x0, 0x0⟩) rfl rfl BitVec.and_allOnes BitVec.and_zero BitVec.and_allOnes BitVec.and_allOnes BitVec.and_zero)
    (word_matches (m := ⟨BitVec.allOnes 8, BitVec.allOnes 4, BitVec.allOnes 4, BitVec.allOnes 16, BitVec.allOnes 32⟩) (g := ⟨0x0, 0x0, 0x0, 0x0, 0x0⟩) rfl rfl BitVec.and_allOnes BitVec.and_allOnes BitVec.and_allOnes BitVec.and_allOnes BitVec.and_allOnes)

theorem MatchesRow.immDwLd2 (dst : Reg) (imm nextImm : BitVec 32) : MatchesRow.Statement (.immDwLd2 dst imm nextImm) :=
  matchesRow_wide rfl rfl rfl
    (word_matches (m := ⟨BitVec.allOnes 8, 0, BitVec.allOnes 4, BitVec.allOnes 16, 0⟩) (g := ⟨0x18, 0x0, 0x2, 0x0, 0x0⟩) rfl rfl BitVec.and_allOnes BitVec.and_zero BitVec.and_allOnes BitVec.and_allOnes BitVec.and_zero)
    (word_matches (m := ⟨BitVec.allOnes 8, BitVec.allOnes 4, BitVec.allOnes 4, BitVec.allOnes 16, 0⟩) (g := ⟨0x0, 0x0, 0x0, 0x0, 0x0⟩) rfl rfl BitVec.and_allOnes BitVec.and_allOnes BitVec.and_allOnes BitVec.and_allOnes BitVec.and_zero)

theorem MatchesRow.immDwLd3 (dst : Reg) (imm : BitVec 32) : MatchesRow.Statement (.immDwLd3 dst imm) :=
  matchesRow_wide rfl rfl rfl
    (word_matches (m := ⟨BitVec.allOnes 8, 0, BitVec.allOnes 4, BitVec.allOnes 16, 0⟩) (g := ⟨0x18, 0x0, 0x3, 0x0, 0x0⟩) rfl rfl BitVec.and_allOnes BitVec.and_zero BitVec.and_allOnes BitVec.and_allOnes BitVec.and_zero)
    (word_matches (m := ⟨BitVec.allOnes 8, BitVec.allOnes 4, BitVec.allOnes 4, BitVec.allOnes 16, BitVec.allOnes 32⟩) (g := ⟨0x0, 0x0, 0x0, 0x0, 0x0⟩) rfl rfl BitVec.and_allOnes BitVec.and_allOnes BitVec.and_allOnes BitVec.and_allOnes BitVec.and_allOnes)

theorem MatchesRow.immDwLd4 (dst : Reg) (imm : BitVec 32) : MatchesRow.Statement (.immDwLd4 dst imm) :=
  matchesRow_wide rfl rfl rfl
    (word_matches (m := ⟨BitVec.allOnes 8, 0, BitVec.allOnes 4, BitVec.allOnes 16, 0⟩) (g := ⟨0x18, 0x0, 0x4, 0x0, 0x0⟩) rfl rfl BitVec.and_allOnes BitVec.and_zero BitVec.and_allOnes BitVec.and_allOnes BitVec.and_zero)
    (word_matches (m := ⟨BitVec.allOnes 8, BitVec.allOnes 4, BitVec.allOnes 4, BitVec.allOnes 16, BitVec.allOnes 32⟩) (g := ⟨0x0, 0x0, 0x0, 0x0, 0x0⟩) rfl rfl BitVec.and_allOnes BitVec.and_allOnes BitVec.and_allOnes BitVec.and_allOnes BitVec.and_allOnes)

theorem MatchesRow.immDwLd5 (dst : Reg) (imm : BitVec 32) : MatchesRow.Statement (.immDwLd5 dst imm) :=
  matchesRow_wide rfl rfl rfl
    (word_matches (m := ⟨BitVec.allOnes 8, 0, BitVec.allOnes 4, BitVec.allOnes 16, 0⟩) (g := ⟨0x18, 0x0, 0x5, 0x0, 0x0⟩) rfl rfl BitVec.and_allOnes BitVec.and_zero BitVec.and_allOnes BitVec.and_allOnes BitVec.and_zero)
    (word_matches (m := ⟨BitVec.allOnes 8, BitVec.allOnes 4, BitVec.allOnes 4, BitVec.allOnes 16, BitVec.allOnes 32⟩) (g := ⟨0x0, 0x0, 0x0, 0x0, 0x0⟩) rfl rfl BitVec.and_allOnes BitVec.and_allOnes BitVec.and_allOnes BitVec.and_allOnes BitVec.and_allOnes)

theorem MatchesRow.immDwLd6 (dst : Reg) (imm nextImm : BitVec 32) : MatchesRow.Statement (.immDwLd6 dst imm nextImm) :=
  matchesRow_wide rfl rfl rfl
    (word_matches (m := ⟨BitVec.allOnes 8, 0, BitVec.allOnes 4, BitVec.allOnes 16, 0⟩) (g := ⟨0x18, 0x0, 0x6, 0x0, 0x0⟩) rfl rfl BitVec.and_allOnes BitVec.and_zero BitVec.and_allOnes BitVec.and_allOnes BitVec.and_zero)
    (word_matches (m := ⟨BitVec.allOnes 8, BitVec.allOnes 4, BitVec.allOnes 4, BitVec.allOnes 16, 0⟩) (g := ⟨0x0, 0x0, 0x0, 0x0, 0x0⟩) rfl rfl BitVec.and_allOnes BitVec.and_allOnes BitVec.and_allOnes BitVec.and_allOnes BitVec.and_zero)

theorem MatchesRow.absWLd (imm : BitVec 32) : MatchesRow.Statement (.absWLd imm) :=
  matchesRow_basic rfl rfl rfl
    (word_matches (m := ⟨BitVec.allOnes 8, BitVec.allOnes 4, BitVec.allOnes 4, BitVec.allOnes 16, 0⟩) (g := ⟨0x20, 0x0, 0x0, 0x0, 0x0⟩) rfl rfl BitVec.and_allOnes BitVec.and_allOnes BitVec.and_allOnes BitVec.and_allOnes BitVec.and_zero)

theorem MatchesRow.absHLd (imm : BitVec 32) : MatchesRow.Statement (.absHLd imm) :=
  matchesRow_basic rfl rfl rfl
    (word_matches (m := ⟨BitVec.allOnes 8, BitVec.allOnes 4, BitVec.allOnes 4, BitVec.allOnes 16, 0⟩) (g := ⟨0x28, 0x0, 0x0, 0x0, 0x0⟩) rfl rfl BitVec.and_allOnes BitVec.and_allOnes BitVec.and_allOnes BitVec.and_allOnes BitVec.and_zero)

theorem MatchesRow.absBLd (imm : BitVec 32) : MatchesRow.Statement (.absBLd imm) :=
  matchesRow_basic rfl rfl rfl
    (word_matches (m := ⟨BitVec.allOnes 8, BitVec.allOnes 4, BitVec.allOnes 4, BitVec.allOnes 16, 0⟩) (g := ⟨0x30, 0x0, 0x0, 0x0, 0x0⟩) rfl rfl BitVec.and_allOnes BitVec.and_allOnes BitVec.and_allOnes BitVec.and_allOnes BitVec.and_zero)

theorem MatchesRow.indWLd (src : Reg) (imm : BitVec 32) : MatchesRow.Statement (.indWLd src imm) :=
  matchesRow_basic rfl rfl rfl
    (word_matches (m := ⟨BitVec.allOnes 8, BitVec.allOnes 4, 0, BitVec.allOnes 16, 0⟩) (g := ⟨0x40, 0x0, 0x0, 0x0, 0x0⟩) rfl rfl BitVec.and_allOnes BitVec.and_allOnes BitVec.and_zero BitVec.and_allOnes BitVec.and_zero)

theorem MatchesRow.indHLd (src : Reg) (imm : BitVec 32) : MatchesRow.Statement (.indHLd src imm) :=
  matchesRow_basic rfl rfl rfl
    (word_matches (m := ⟨BitVec.allOnes 8, BitVec.allOnes 4, 0, BitVec.allOnes 16, 0⟩) (g := ⟨0x48, 0x0, 0x0, 0x0, 0x0⟩) rfl rfl BitVec.and_allOnes BitVec.and_allOnes BitVec.and_zero BitVec.and_allOnes BitVec.and_zero)

theorem MatchesRow.indBLd (src : Reg) (imm : BitVec 32) : MatchesRow.Statement (.indBLd src imm) :=
  matchesRow_basic rfl rfl rfl
    (word_matches (m := ⟨BitVec.allOnes 8, BitVec.allOnes 4, 0, BitVec.allOnes 16, 0⟩) (g := ⟨0x50, 0x0, 0x0, 0x0, 0x0⟩) rfl rfl BitVec.and_allOnes BitVec.and_allOnes BitVec.and_zero BitVec.and_allOnes BitVec.and_zero)

end Sys2Proof.Laws
end

