-- ==== Sys2Proof/Tests/Slice0.lean ====
section
/-!
SUPPORT. Tests. The words and the expected results are those of spec/95_test_vectors.md (the vector is named), or are
written from the encoding its rule gives; none comes from the model. A theorem `witness_<Name>` shows that the
hypotheses of the statement `Obligations.<Name>` can be met together.
-/
namespace Sys2Proof.Tests

open Sys2Proof.Machine

/-! ### Small machines -/

/-- No register holds a value. -/
def noRegs : Regs := ((Regs.entryOfR36 0 0).set .r1 .unwritten).set .r10 .unwritten

/-- Registers holding these values, the others none. -/
def regsOf (rs : List (Reg × Word)) : Regs := rs.foldl (fun x r => x.set r.1 (.holds r.2)) noRegs

/-- A program of 20 slots with these canonical words from slot `pc` on and zeros elsewhere. -/
def program (host : Endian) (pc : Nat) (ws : List Word) : List Slot :=
  List.replicate pc Slot.zero ++ ws.map (fun w => (Fields.ofWord w).slot host)
    ++ List.replicate (20 - pc - ws.length) Slot.zero

/-- A running machine about to execute the first of these words, on a host of this byte order. -/
def machineOn (host : Endian) (pc : Nat) (ws : List Word) (rs : List (Reg × Word)) (mem : Memory) : State :=
  { State.reset with
    regs := regsOf rs
    pc := pc
    mem := mem
    text := program host pc ws
    params := { Params.recommended with hostEndian := host } }

/-- The same on a little-endian host with no byte stored. -/
def machine (pc : Nat) (ws : List Word) (rs : List (Reg × Word)) : State := machineOn .little pc ws rs []

/-- One step completes with the pc, these registers and these stored bytes as given. -/
def goesTo (s : State) (pc : Nat) (rs : List (Reg × RegVal)) (bs : Memory) : Bool :=
  match step s with
  | .next t =>
    decide (t.pc = pc) && rs.all (fun r => decide (t.reg r.1 = r.2))
      && bs.all fun b => decide (Memory.find t.mem b.1 = some b.2)
  | .fault _ => false
  | .refused _ => false

/-- One step ends in this fault. -/
def faultsWith (s : State) (f : Fault) : Bool :=
  match step s with
  | .next _ => false
  | .fault g => decide (g = f)
  | .refused _ => false

/-- Eight bytes from an address on. -/
def eight (a : Nat) (b0 b1 b2 b3 b4 b5 b6 b7 : Byte) : Memory :=
  [(a, b0), (a + 1, b1), (a + 2, b2), (a + 3, b3), (a + 4, b4), (a + 5, b5), (a + 6, b6), (a + 7, b7)]

/-- The platform of vectors V165 to V168: one static helper that multiplies, one BTF helper. -/
def helperParams : Params :=
  { Params.recommended with
    helpersStatic := [(7, { nargs := 2, known := [{ args := [3, 4], first := ⟨12, []⟩ }] })]
    helpersBtf := [(9, { nargs := 0, known := [{ args := [], first := ⟨0xabc, []⟩ }] })] }

/-- The platform of vectors V313 to V318. -/
def mapParams : Params :=
  { Params.recommended with
    mapByFd := [(3, 0x7003)]
    mapByIdx := [(3, 0x7103)]
    mapVal := [(0x7003, 0x1800), (0x7103, 0x1800)]
    varAddr := [(3, 0x1400)]
    codeAddr := [((4, 2), 0xc0de0038)] }

/-- The frame of vector V172. -/
def frame : Frame := ⟨11, some ⟨.holds 1, .holds 2, .unwritten, .holds 4, .holds 0x2000⟩⟩

/-! ### Decoding: words of 95_test_vectors.md, and of 48_packet.md R367 to R370 -/

theorem test_decodeAlu32A :
  decodeTableWord 64 0xffffffff00000104 = some (.addKAlu .r1 0xffffffff) ∧
  decodeTableWord 64 0x000000000000210c = some (.addXAlu .r1 .r2) ∧
  decodeTableWord 64 0x0000000700000114 = some (.subKAlu .r1 0x7) ∧
  decodeTableWord 64 0x000000000000211c = some (.subXAlu .r1 .r2) ∧
  decodeTableWord 64 0x0000000200000124 = some (.mulKAlu .r1 0x2) ∧
  decodeTableWord 64 0x000000000000212c = some (.mulXAlu .r1 .r2) ∧
  decodeTableWord 64 0xfffffffe00000134 = some (.divKAlu .r1 0xfffffffe) ∧
  decodeTableWord 64 0x000000000000213c = some (.divXAlu .r1 .r2) ∧
  decodeTableWord 64 0xfffffffe00010134 = some (.sdivKAlu .r1 0xfffffffe) ∧
  decodeTableWord 64 0x000000000001213c = some (.sdivXAlu .r1 .r2) ∧
  decodeTableWord 64 0x8000000000000144 = some (.orKAlu .r1 0x80000000) ∧
  decodeTableWord 64 0x000000000000214c = some (.orXAlu .r1 .r2) := by
  decide

theorem test_decodeAlu32B :
  decodeTableWord 64 0xfffffff000000154 = some (.andKAlu .r1 0xfffffff0) ∧
  decodeTableWord 64 0x000000000000215c = some (.andXAlu .r1 .r2) ∧
  decodeTableWord 64 0x0000002000000164 = some (.lshKAlu .r1 0x20) ∧
  decodeTableWord 64 0x000000000000216c = some (.lshXAlu .r1 .r2) ∧
  decodeTableWord 64 0x0000001f00000174 = some (.rshKAlu .r1 0x1f) ∧
  decodeTableWord 64 0x000000000000217c = some (.rshXAlu .r1 .r2) ∧
  decodeTableWord 64 0x0000000000000184 = some (.negKAlu .r1) ∧
  decodeTableWord 64 0x0000000300000194 = some (.modKAlu .r1 0x3) ∧
  decodeTableWord 64 0x000000000000219c = some (.modXAlu .r1 .r2) ∧
  decodeTableWord 64 0xfffffffb00010194 = some (.smodKAlu .r1 0xfffffffb) ∧
  decodeTableWord 64 0x000000000001219c = some (.smodXAlu .r1 .r2) ∧
  decodeTableWord 64 0xffffffff000001a4 = some (.xorKAlu .r1 0xffffffff) := by
  decide

theorem test_decodeAlu32C :
  decodeTableWord 64 0x00000000000011ac = some (.xorXAlu .r1 .r1) ∧
  decodeTableWord 64 0x80000000000001b4 = some (.movKAlu .r1 0x80000000) ∧
  decodeTableWord 64 0x00000000000021bc = some (.movXAlu .r1 .r2) ∧
  decodeTableWord 64 0x00000000000821bc = some (.movsx8XAlu .r1 .r2) ∧
  decodeTableWord 64 0x00000000001021bc = some (.movsx16XAlu .r1 .r2) ∧
  decodeTableWord 64 0x0000001f000001c4 = some (.arshKAlu .r1 0x1f) ∧
  decodeTableWord 64 0x00000000000021cc = some (.arshXAlu .r1 .r2) := by
  decide

theorem test_decodeAlu64A :
  decodeTableWord 64 0x1122334400000107 = some (.addKAlu64 .r1 0x11223344) ∧
  decodeTableWord 64 0x000000000000210f = some (.addXAlu64 .r1 .r2) ∧
  decodeTableWord 64 0x0000000100000117 = some (.subKAlu64 .r1 0x1) ∧
  decodeTableWord 64 0x000000000000211f = some (.subXAlu64 .r1 .r2) ∧
  decodeTableWord 64 0xfffffffe00000127 = some (.mulKAlu64 .r1 0xfffffffe) ∧
  decodeTableWord 64 0x000000000000212f = some (.mulXAlu64 .r1 .r2) ∧
  decodeTableWord 64 0xffffffff00000137 = some (.divKAlu64 .r1 0xffffffff) ∧
  decodeTableWord 64 0x000000000000213f = some (.divXAlu64 .r1 .r2) ∧
  decodeTableWord 64 0x0000000200010137 = some (.sdivKAlu64 .r1 0x2) ∧
  decodeTableWord 64 0x000000000001213f = some (.sdivXAlu64 .r1 .r2) ∧
  decodeTableWord 64 0x8000000000000147 = some (.orKAlu64 .r1 0x80000000) ∧
  decodeTableWord 64 0x000000000000214f = some (.orXAlu64 .r1 .r2) := by
  decide

theorem test_decodeAlu64B :
  decodeTableWord 64 0xfffffff000000157 = some (.andKAlu64 .r1 0xfffffff0) ∧
  decodeTableWord 64 0x000000000000215f = some (.andXAlu64 .r1 .r2) ∧
  decodeTableWord 64 0x0000003f00000167 = some (.lshKAlu64 .r1 0x3f) ∧
  decodeTableWord 64 0x000000000000216f = some (.lshXAlu64 .r1 .r2) ∧
  decodeTableWord 64 0x0000002000000177 = some (.rshKAlu64 .r1 0x20) ∧
  decodeTableWord 64 0x000000000000217f = some (.rshXAlu64 .r1 .r2) ∧
  decodeTableWord 64 0x0000000000000187 = some (.negKAlu64 .r1) ∧
  decodeTableWord 64 0xffffffff00000197 = some (.modKAlu64 .r1 0xffffffff) ∧
  decodeTableWord 64 0x000000000000219f = some (.modXAlu64 .r1 .r2) ∧
  decodeTableWord 64 0x0000000300010197 = some (.smodKAlu64 .r1 0x3) ∧
  decodeTableWord 64 0x000000000001219f = some (.smodXAlu64 .r1 .r2) ∧
  decodeTableWord 64 0x80000000000001a7 = some (.xorKAlu64 .r1 0x80000000) := by
  decide

theorem test_decodeAlu64C :
  decodeTableWord 64 0x00000000000021af = some (.xorXAlu64 .r1 .r2) ∧
  decodeTableWord 64 0xfffffffe000001b7 = some (.movKAlu64 .r1 0xfffffffe) ∧
  decodeTableWord 64 0x00000000000021bf = some (.movXAlu64 .r1 .r2) ∧
  decodeTableWord 64 0x00000000000821bf = some (.movsx8XAlu64 .r1 .r2) ∧
  decodeTableWord 64 0x00000000001021bf = some (.movsx16XAlu64 .r1 .r2) ∧
  decodeTableWord 64 0x00000000002021bf = some (.movsx32XAlu64 .r1 .r2) ∧
  decodeTableWord 64 0x0000003c000001c7 = some (.arshKAlu64 .r1 0x3c) ∧
  decodeTableWord 64 0x00000000000021cf = some (.arshXAlu64 .r1 .r2) := by
  decide

theorem test_decodeByteSwap :
  decodeTableWord 64 0x00000010000001d4 = some (.endToLeAlu16 .r1) ∧
  decodeTableWord 64 0x00000020000001d4 = some (.endToLeAlu32 .r1) ∧
  decodeTableWord 64 0x00000040000001d4 = some (.endToLeAlu64 .r1) ∧
  decodeTableWord 64 0x00000010000001dc = some (.endToBeAlu16 .r1) ∧
  decodeTableWord 64 0x00000020000001dc = some (.endToBeAlu32 .r1) ∧
  decodeTableWord 64 0x00000040000001dc = some (.endToBeAlu64 .r1) ∧
  decodeTableWord 64 0x00000010000001d7 = some (.endAlu64Swap16 .r1) ∧
  decodeTableWord 64 0x00000020000001d7 = some (.endAlu64Swap32 .r1) ∧
  decodeTableWord 64 0x00000040000001d7 = some (.endAlu64Swap64 .r1) := by
  decide

theorem test_decodeJumpA :
  decodeTableWord 64 0x00000000fffd0005 = some (.jaKJmp 0xfffd) ∧
  decodeTableWord 64 0xfffffffe00030115 = some (.jeqKJmp .r1 0xfffffffe 0x3) ∧
  decodeTableWord 64 0x000000000003211d = some (.jeqXJmp .r1 .r2 0x3) ∧
  decodeTableWord 64 0xfffffffe00030125 = some (.jgtKJmp .r1 0xfffffffe 0x3) ∧
  decodeTableWord 64 0x000000000003212d = some (.jgtXJmp .r1 .r2 0x3) ∧
  decodeTableWord 64 0xfffffffe00030135 = some (.jgeKJmp .r1 0xfffffffe 0x3) ∧
  decodeTableWord 64 0x000000000003213d = some (.jgeXJmp .r1 .r2 0x3) ∧
  decodeTableWord 64 0xfffffffe00030145 = some (.jsetKJmp .r1 0xfffffffe 0x3) ∧
  decodeTableWord 64 0x000000000003214d = some (.jsetXJmp .r1 .r2 0x3) ∧
  decodeTableWord 64 0xfffffffe00030155 = some (.jneKJmp .r1 0xfffffffe 0x3) ∧
  decodeTableWord 64 0x000000000003215d = some (.jneXJmp .r1 .r2 0x3) ∧
  decodeTableWord 64 0xfffffffe00030165 = some (.jsgtKJmp .r1 0xfffffffe 0x3) := by
  decide

theorem test_decodeJumpB :
  decodeTableWord 64 0x000000000003216d = some (.jsgtXJmp .r1 .r2 0x3) ∧
  decodeTableWord 64 0xfffffffe00030175 = some (.jsgeKJmp .r1 0xfffffffe 0x3) ∧
  decodeTableWord 64 0x000000000003217d = some (.jsgeXJmp .r1 .r2 0x3) ∧
  decodeTableWord 64 0xfffffffe000301a5 = some (.jltKJmp .r1 0xfffffffe 0x3) ∧
  decodeTableWord 64 0x00000000000321ad = some (.jltXJmp .r1 .r2 0x3) ∧
  decodeTableWord 64 0xfffffffe000301b5 = some (.jleKJmp .r1 0xfffffffe 0x3) ∧
  decodeTableWord 64 0x00000000000321bd = some (.jleXJmp .r1 .r2 0x3) ∧
  decodeTableWord 64 0xfffffffe000301c5 = some (.jsltKJmp .r1 0xfffffffe 0x3) ∧
  decodeTableWord 64 0x00000000000321cd = some (.jsltXJmp .r1 .r2 0x3) ∧
  decodeTableWord 64 0xfffffffe000301d5 = some (.jsleKJmp .r1 0xfffffffe 0x3) ∧
  decodeTableWord 64 0x00000000000321dd = some (.jsleXJmp .r1 .r2 0x3) ∧
  decodeTableWord 64 0x0000000700000085 = some (.callHelperKJmp 0x7) := by
  decide

theorem test_decodeJumpC :
  decodeTableWord 64 0x0000000500001085 = some (.callLocalKJmp 0x5) ∧
  decodeTableWord 64 0x0000000900002085 = some (.callBtfKJmp 0x9) ∧
  decodeTableWord 64 0x0000000000000095 = some (.exitKJmp) := by
  decide

theorem test_decodeJump32A :
  decodeTableWord 64 0x0000000600000006 = some (.jaKJmp32 0x6) ∧
  decodeTableWord 64 0x0000000100030116 = some (.jeqKJmp32 .r1 0x1 0x3) ∧
  decodeTableWord 64 0x000000000003211e = some (.jeqXJmp32 .r1 .r2 0x3) ∧
  decodeTableWord 64 0x0000000100030126 = some (.jgtKJmp32 .r1 0x1 0x3) ∧
  decodeTableWord 64 0x000000000003212e = some (.jgtXJmp32 .r1 .r2 0x3) ∧
  decodeTableWord 64 0x0000000100030136 = some (.jgeKJmp32 .r1 0x1 0x3) ∧
  decodeTableWord 64 0x000000000003213e = some (.jgeXJmp32 .r1 .r2 0x3) ∧
  decodeTableWord 64 0x0000000100030146 = some (.jsetKJmp32 .r1 0x1 0x3) ∧
  decodeTableWord 64 0x000000000003214e = some (.jsetXJmp32 .r1 .r2 0x3) ∧
  decodeTableWord 64 0x0000000100030156 = some (.jneKJmp32 .r1 0x1 0x3) ∧
  decodeTableWord 64 0x000000000003215e = some (.jneXJmp32 .r1 .r2 0x3) ∧
  decodeTableWord 64 0xfffffffe00030166 = some (.jsgtKJmp32 .r1 0xfffffffe 0x3) := by
  decide

theorem test_decodeJump32B :
  decodeTableWord 64 0x000000000003216e = some (.jsgtXJmp32 .r1 .r2 0x3) ∧
  decodeTableWord 64 0xfffffffe00030176 = some (.jsgeKJmp32 .r1 0xfffffffe 0x3) ∧
  decodeTableWord 64 0x000000000003217e = some (.jsgeXJmp32 .r1 .r2 0x3) ∧
  decodeTableWord 64 0xfffffffe000301a6 = some (.jltKJmp32 .r1 0xfffffffe 0x3) ∧
  decodeTableWord 64 0x00000000000321ae = some (.jltXJmp32 .r1 .r2 0x3) ∧
  decodeTableWord 64 0xfffffffe000301b6 = some (.jleKJmp32 .r1 0xfffffffe 0x3) ∧
  decodeTableWord 64 0x00000000000321be = some (.jleXJmp32 .r1 .r2 0x3) ∧
  decodeTableWord 64 0x00000001000301c6 = some (.jsltKJmp32 .r1 0x1 0x3) ∧
  decodeTableWord 64 0x00000000000321ce = some (.jsltXJmp32 .r1 .r2 0x3) ∧
  decodeTableWord 64 0x00000001000301d6 = some (.jsleKJmp32 .r1 0x1 0x3) ∧
  decodeTableWord 64 0x00000000000321de = some (.jsleXJmp32 .r1 .r2 0x3) := by
  decide

theorem test_decodeLoadStoreA :
  decodeTableWord 64 0x0000000000002161 = some (.memWLdx .r1 .r2 0x0) ∧
  decodeTableWord 64 0x0000000000002169 = some (.memHLdx .r1 .r2 0x0) ∧
  decodeTableWord 64 0x0000000000002171 = some (.memBLdx .r1 .r2 0x0) ∧
  decodeTableWord 64 0x0000000000002179 = some (.memDwLdx .r1 .r2 0x0) ∧
  decodeTableWord 64 0xfffffffefff80a62 = some (.memWSt .r10 0xfff8 0xfffffffe) ∧
  decodeTableWord 64 0xfffffffefffe0a6a = some (.memHSt .r10 0xfffe 0xfffffffe) ∧
  decodeTableWord 64 0x000001ffffff0a72 = some (.memBSt .r10 0xffff 0x1ff) ∧
  decodeTableWord 64 0xfffffffefff80a7a = some (.memDwSt .r10 0xfff8 0xfffffffe) ∧
  decodeTableWord 64 0x00000000fff83a63 = some (.memWStx .r10 .r3 0xfff8) ∧
  decodeTableWord 64 0x00000000fff83a6b = some (.memHStx .r10 .r3 0xfff8) ∧
  decodeTableWord 64 0x00000000fff83a73 = some (.memBStx .r10 .r3 0xfff8) ∧
  decodeTableWord 64 0x00000000fff83a7b = some (.memDwStx .r10 .r3 0xfff8) := by
  decide

theorem test_decodeLoadStoreB :
  decodeTableWord 64 0x0000000000002181 = some (.memsxWLdx .r1 .r2 0x0) ∧
  decodeTableWord 64 0x0000000000002189 = some (.memsxHLdx .r1 .r2 0x0) ∧
  decodeTableWord 64 0x0000000000002191 = some (.memsxBLdx .r1 .r2 0x0) := by
  decide

theorem test_decodeAtomicA :
  decodeTableWord 64 0x00000000000021c3 = some (.atomicWStxAdd .r1 .r2 0x0) ∧
  decodeTableWord 64 0x00000000000021db = some (.atomicDwStxAdd .r1 .r2 0x0) ∧
  decodeTableWord 64 0x00000001000021c3 = some (.atomicWStxAddFetch .r1 .r2 0x0) ∧
  decodeTableWord 64 0x00000001000021db = some (.atomicDwStxAddFetch .r1 .r2 0x0) ∧
  decodeTableWord 64 0x00000040000021c3 = some (.atomicWStxOr .r1 .r2 0x0) ∧
  decodeTableWord 64 0x00000040000021db = some (.atomicDwStxOr .r1 .r2 0x0) ∧
  decodeTableWord 64 0x00000041000021c3 = some (.atomicWStxOrFetch .r1 .r2 0x0) ∧
  decodeTableWord 64 0x00000041000021db = some (.atomicDwStxOrFetch .r1 .r2 0x0) ∧
  decodeTableWord 64 0x00000050000021c3 = some (.atomicWStxAnd .r1 .r2 0x0) ∧
  decodeTableWord 64 0x00000050000021db = some (.atomicDwStxAnd .r1 .r2 0x0) ∧
  decodeTableWord 64 0x00000051000021c3 = some (.atomicWStxAndFetch .r1 .r2 0x0) ∧
  decodeTableWord 64 0x00000051000021db = some (.atomicDwStxAndFetch .r1 .r2 0x0) := by
  decide

theorem test_decodeAtomicB :
  decodeTableWord 64 0x000000a0000021c3 = some (.atomicWStxXor .r1 .r2 0x0) ∧
  decodeTableWord 64 0x000000a0000021db = some (.atomicDwStxXor .r1 .r2 0x0) ∧
  decodeTableWord 64 0x000000a1000021c3 = some (.atomicWStxXorFetch .r1 .r2 0x0) ∧
  decodeTableWord 64 0x000000a1000021db = some (.atomicDwStxXorFetch .r1 .r2 0x0) ∧
  decodeTableWord 64 0x000000e1000021c3 = some (.atomicWStxXchg .r1 .r2 0x0) ∧
  decodeTableWord 64 0x000000e1000021db = some (.atomicDwStxXchg .r1 .r2 0x0) ∧
  decodeTableWord 64 0x000000f1000021c3 = some (.atomicWStxCmpxchg .r1 .r2 0x0) ∧
  decodeTableWord 64 0x000000f1000021db = some (.atomicDwStxCmpxchg .r1 .r2 0x0) := by
  decide

theorem test_decodeImm64 :
  decodeTableWord 128 0x11223344000000005566778800000118 = some (.immDwLd0 .r1 0x55667788 0x11223344) ∧
  decodeTableWord 128 0x00000000000000000000000300001118 = some (.immDwLd1 .r1 0x3) ∧
  decodeTableWord 128 0xfffffff8000000000000000300002118 = some (.immDwLd2 .r1 0x3 0xfffffff8) ∧
  decodeTableWord 128 0x00000000000000000000000300003118 = some (.immDwLd3 .r1 0x3) ∧
  decodeTableWord 128 0x00000000000000000000000200004118 = some (.immDwLd4 .r1 0x2) ∧
  decodeTableWord 128 0x00000000000000000000000300005118 = some (.immDwLd5 .r1 0x3) ∧
  decodeTableWord 128 0x00000010000000000000000300006118 = some (.immDwLd6 .r1 0x3 0x10) := by
  decide

theorem test_decodePacket :
  decodeTableWord 64 0x0000000e00000020 = some (.absWLd 0xe) ∧
  decodeTableWord 64 0x0000000e00000028 = some (.absHLd 0xe) ∧
  decodeTableWord 64 0x0000000e00000030 = some (.absBLd 0xe) ∧
  decodeTableWord 64 0x0000000e00003040 = some (.indWLd .r3 0xe) ∧
  decodeTableWord 64 0x0000000e00003048 = some (.indHLd .r3 0xe) ∧
  decodeTableWord 64 0x0000000000002050 = some (.indBLd .r2 0x0) := by
  decide

/-! ### One step of each instruction, and of each kind of fault -/

/-- Vector V2, R126. -/
theorem test_addKAlu :
    goesTo (machine 0 [0xffffffff00000104] [(.r1, 0x100000005)])
      1 [(.r1, .holds 0x4)] [] = true := by
  decide

/-- Vector V1, R127. -/
theorem test_addXAlu :
    goesTo (machine 0 [0x000000000000210c] [(.r1, 0xffffffffffffffff), (.r2, 0x1)])
      1 [(.r1, .holds 0x0)] [] = true := by
  decide

/-- Vector V4, R128. -/
theorem test_subKAlu :
    goesTo (machine 0 [0x0000000700000114] [(.r1, 0xdeadbeef00000009)])
      1 [(.r1, .holds 0x2)] [] = true := by
  decide

/-- Vector V3, R129. -/
theorem test_subXAlu :
    goesTo (machine 0 [0x000000000000211c] [(.r1, 0x0), (.r2, 0x1)])
      1 [(.r1, .holds 0xffffffff)] [] = true := by
  decide

/-- Vector V6, R130. -/
theorem test_mulKAlu :
    goesTo (machine 0 [0x0000000200000124] [(.r1, 0xffffffff)])
      1 [(.r1, .holds 0xfffffffe)] [] = true := by
  decide

/-- Vector V5, R131. -/
theorem test_mulXAlu :
    goesTo (machine 0 [0x000000000000212c] [(.r1, 0x10000), (.r2, 0x10000)])
      1 [(.r1, .holds 0x0)] [] = true := by
  decide

/-- Vector V10, R132. -/
theorem test_divKAlu :
    goesTo (machine 0 [0xfffffffe00000134] [(.r1, 0xffffffff)])
      1 [(.r1, .holds 0x1)] [] = true := by
  decide

/-- Vector V7, R133. -/
theorem test_divXAlu :
    goesTo (machine 0 [0x000000000000213c] [(.r1, 0xffffffff00000007), (.r2, 0x2)])
      1 [(.r1, .holds 0x3)] [] = true := by
  decide

/-- Vector V14, R134. -/
theorem test_sdivKAlu :
    goesTo (machine 0 [0xfffffffe00010134] [(.r1, 0x7)])
      1 [(.r1, .holds 0xfffffffd)] [] = true := by
  decide

/-- Vector V11, R135. -/
theorem test_sdivXAlu :
    goesTo (machine 0 [0x000000000001213c] [(.r1, 0xfffffff9), (.r2, 0x2)])
      1 [(.r1, .holds 0xfffffffd)] [] = true := by
  decide

/-- Vector V15, R136. -/
theorem test_orKAlu :
    goesTo (machine 0 [0x8000000000000144] [(.r1, 0xffffffff00000001)])
      1 [(.r1, .holds 0x80000001)] [] = true := by
  decide

/-- Vector V16, R137. -/
theorem test_orXAlu :
    goesTo (machine 0 [0x000000000000214c] [(.r1, 0xf), (.r2, 0xffffffff000000f0)])
      1 [(.r1, .holds 0xff)] [] = true := by
  decide

/-- Vector V17, R138. -/
theorem test_andKAlu :
    goesTo (machine 0 [0xfffffff000000154] [(.r1, 0x123456789abcdef0)])
      1 [(.r1, .holds 0x9abcdef0)] [] = true := by
  decide

/-- Vector V18, R139. -/
theorem test_andXAlu :
    goesTo (machine 0 [0x000000000000215c] [(.r1, 0xff00ff00ff00ff00), (.r2, 0xff00ff00ff00ff0)])
      1 [(.r1, .holds 0xf000f00)] [] = true := by
  decide

/-- Vector V19, R140. -/
theorem test_lshKAlu :
    goesTo (machine 0 [0x0000002000000164] [(.r1, 0x180000001)])
      1 [(.r1, .holds 0x80000001)] [] = true := by
  decide

/-- Vector V20, R141. -/
theorem test_lshXAlu :
    goesTo (machine 0 [0x000000000000216c] [(.r1, 0x80000001), (.r2, 0x21)])
      1 [(.r1, .holds 0x2)] [] = true := by
  decide

/-- Vector V21, R142. -/
theorem test_rshKAlu :
    goesTo (machine 0 [0x0000001f00000174] [(.r1, 0xffffffff80000000)])
      1 [(.r1, .holds 0x1)] [] = true := by
  decide

/-- Vector V22, R143. -/
theorem test_rshXAlu :
    goesTo (machine 0 [0x000000000000217c] [(.r1, 0x80000000), (.r2, 0xffffffffffffffe4)])
      1 [(.r1, .holds 0x8000000)] [] = true := by
  decide

/-- Vector V23, R144. -/
theorem test_negKAlu :
    goesTo (machine 0 [0x0000000000000184] [(.r1, 0x1)])
      1 [(.r1, .holds 0xffffffff)] [] = true := by
  decide

/-- Vector V27, R145. -/
theorem test_modKAlu :
    goesTo (machine 0 [0x0000000300000194] [(.r1, 0xd)])
      1 [(.r1, .holds 0x1)] [] = true := by
  decide

/-- Vector V25, R146. -/
theorem test_modXAlu :
    goesTo (machine 0 [0x000000000000219c] [(.r1, 0xaaaaaaaa00000007), (.r2, 0x4)])
      1 [(.r1, .holds 0x3)] [] = true := by
  decide

/-- Vector V33, R147. -/
theorem test_smodKAlu :
    goesTo (machine 0 [0xfffffffb00010194] [(.r1, 0xfffffff3)])
      1 [(.r1, .holds 0xfffffffd)] [] = true := by
  decide

/-- Vector V29, R148. -/
theorem test_smodXAlu :
    goesTo (machine 0 [0x000000000001219c] [(.r1, 0xfffffff3), (.r2, 0x3)])
      1 [(.r1, .holds 0xffffffff)] [] = true := by
  decide

/-- Vector V34, R149. -/
theorem test_xorKAlu :
    goesTo (machine 0 [0xffffffff000001a4] [(.r1, 0x123456780f0f0f0f)])
      1 [(.r1, .holds 0xf0f0f0f0)] [] = true := by
  decide

/-- Vector V35, R150. -/
theorem test_xorXAlu :
    goesTo (machine 0 [0x00000000000011ac] [(.r1, 0x1234567812345678)])
      1 [(.r1, .holds 0x0)] [] = true := by
  decide

/-- Vector V36, R151. -/
theorem test_movKAlu :
    goesTo (machine 0 [0x80000000000001b4] [])
      1 [(.r1, .holds 0x80000000)] [] = true := by
  decide

/-- Vector V37, R152. -/
theorem test_movXAlu :
    goesTo (machine 0 [0x00000000000021bc] [(.r2, 0x1122334455667788)])
      1 [(.r1, .holds 0x55667788)] [] = true := by
  decide

/-- Vector V38, R153. -/
theorem test_movsx8XAlu :
    goesTo (machine 0 [0x00000000000821bc] [(.r2, 0x1234567812345680)])
      1 [(.r1, .holds 0xffffff80)] [] = true := by
  decide

/-- Vector V40, R154. -/
theorem test_movsx16XAlu :
    goesTo (machine 0 [0x00000000001021bc] [(.r2, 0x12348000)])
      1 [(.r1, .holds 0xffff8000)] [] = true := by
  decide

/-- Vector V41, R155. -/
theorem test_arshKAlu :
    goesTo (machine 0 [0x0000001f000001c4] [(.r1, 0x80000000)])
      1 [(.r1, .holds 0xffffffff)] [] = true := by
  decide

/-- Vector V42, R156. -/
theorem test_arshXAlu :
    goesTo (machine 0 [0x00000000000021cc] [(.r1, 0x140000000), (.r2, 0x1)])
      1 [(.r1, .holds 0x20000000)] [] = true := by
  decide

/-- Vector V44, R162. -/
theorem test_addKAlu64 :
    goesTo (machine 0 [0x1122334400000107] [(.r1, 0x1)])
      1 [(.r1, .holds 0x11223345)] [] = true := by
  decide

/-- Vector V46, R163. -/
theorem test_addXAlu64 :
    goesTo (machine 0 [0x000000000000210f] [(.r1, 0xffffffffffffffff), (.r2, 0x2)])
      1 [(.r1, .holds 0x1)] [] = true := by
  decide

/-- Vector V47, R164. -/
theorem test_subKAlu64 :
    goesTo (machine 0 [0x0000000100000117] [(.r1, 0x0)])
      1 [(.r1, .holds 0xffffffffffffffff)] [] = true := by
  decide

/-- Vector V48, R165. -/
theorem test_subXAlu64 :
    goesTo (machine 0 [0x000000000000211f] [(.r1, 0x8000000000000000), (.r2, 0x1)])
      1 [(.r1, .holds 0x7fffffffffffffff)] [] = true := by
  decide

/-- Vector V49, R166. -/
theorem test_mulKAlu64 :
    goesTo (machine 0 [0xfffffffe00000127] [(.r1, 0x4000000000000001)])
      1 [(.r1, .holds 0x7ffffffffffffffe)] [] = true := by
  decide

/-- Vector V50, R167. -/
theorem test_mulXAlu64 :
    goesTo (machine 0 [0x000000000000212f] [(.r1, 0x100000000), (.r2, 0x100000000)])
      1 [(.r1, .holds 0x0)] [] = true := by
  decide

/-- Vector V51, R168. -/
theorem test_divKAlu64 :
    goesTo (machine 0 [0xffffffff00000137] [(.r1, 0xffffffffffffffff)])
      1 [(.r1, .holds 0x1)] [] = true := by
  decide

/-- Vector V53, R169. -/
theorem test_divXAlu64 :
    goesTo (machine 0 [0x000000000000213f] [(.r1, 0xffffffff00000007), (.r2, 0x2)])
      1 [(.r1, .holds 0x7fffffff80000003)] [] = true := by
  decide

/-- Vector V55, R170. -/
theorem test_sdivKAlu64 :
    goesTo (machine 0 [0x0000000200010137] [(.r1, 0xfffffffffffffff9)])
      1 [(.r1, .holds 0xfffffffffffffffd)] [] = true := by
  decide

/-- Vector V56, R171. -/
theorem test_sdivXAlu64 :
    goesTo (machine 0 [0x000000000001213f] [(.r1, 0x8000000000000000), (.r2, 0xffffffffffffffff)])
      1 [] [] = true := by
  decide

/-- Vector V58, R172. -/
theorem test_orKAlu64 :
    goesTo (machine 0 [0x8000000000000147] [(.r1, 0x1)])
      1 [(.r1, .holds 0xffffffff80000001)] [] = true := by
  decide

/-- Vector V59, R173. -/
theorem test_orXAlu64 :
    goesTo (machine 0 [0x000000000000214f] [(.r1, 0xf), (.r2, 0xffffffff000000f0)])
      1 [(.r1, .holds 0xffffffff000000ff)] [] = true := by
  decide

/-- Vector V60, R174. -/
theorem test_andKAlu64 :
    goesTo (machine 0 [0xfffffff000000157] [(.r1, 0x123456789abcdeff)])
      1 [(.r1, .holds 0x123456789abcdef0)] [] = true := by
  decide

/-- Vector V62, R175. -/
theorem test_andXAlu64 :
    goesTo (machine 0 [0x000000000000215f] [(.r1, 0xff00ff00ff00ff00), (.r2, 0xff00ff00ff00ff0)])
      1 [(.r1, .holds 0xf000f000f000f00)] [] = true := by
  decide

/-- Vector V63, R176. -/
theorem test_lshKAlu64 :
    goesTo (machine 0 [0x0000003f00000167] [(.r1, 0x3)])
      1 [(.r1, .holds 0x8000000000000000)] [] = true := by
  decide

/-- Vector V64, R177. -/
theorem test_lshXAlu64 :
    goesTo (machine 0 [0x000000000000216f] [(.r1, 0x8000000000000001), (.r2, 0x41)])
      1 [(.r1, .holds 0x2)] [] = true := by
  decide

/-- Vector V66, R178. -/
theorem test_rshKAlu64 :
    goesTo (machine 0 [0x0000002000000177] [(.r1, 0xdeadbeef00000000)])
      1 [(.r1, .holds 0xdeadbeef)] [] = true := by
  decide

/-- Vector V67, R179. -/
theorem test_rshXAlu64 :
    goesTo (machine 0 [0x000000000000217f] [(.r1, 0x8000000000000000), (.r2, 0x3f)])
      1 [(.r1, .holds 0x1)] [] = true := by
  decide

/-- Vector V68, R180. -/
theorem test_negKAlu64 :
    goesTo (machine 0 [0x0000000000000187] [(.r1, 0x1)])
      1 [(.r1, .holds 0xffffffffffffffff)] [] = true := by
  decide

/-- Vector V70, R181. -/
theorem test_modKAlu64 :
    goesTo (machine 0 [0xffffffff00000197] [(.r1, 0x5)])
      1 [] [] = true := by
  decide

/-- Vector V72, R182. -/
theorem test_modXAlu64 :
    goesTo (machine 0 [0x000000000000219f] [(.r1, 0xaaaaaaaa00000007), (.r2, 0x100000000)])
      1 [(.r1, .holds 0x7)] [] = true := by
  decide

/-- Vector V74, R183. -/
theorem test_smodKAlu64 :
    goesTo (machine 0 [0x0000000300010197] [(.r1, 0xfffffffffffffff3)])
      1 [(.r1, .holds 0xffffffffffffffff)] [] = true := by
  decide

/-- Vector V75, R184. -/
theorem test_smodXAlu64 :
    goesTo (machine 0 [0x000000000001219f] [(.r1, 0xd), (.r2, 0xfffffffffffffffd)])
      1 [(.r1, .holds 0x1)] [] = true := by
  decide

/-- Vector V78, R185. -/
theorem test_xorKAlu64 :
    goesTo (machine 0 [0x80000000000001a7] [(.r1, 0x0)])
      1 [(.r1, .holds 0xffffffff80000000)] [] = true := by
  decide

/-- Vector V79, R186. -/
theorem test_xorXAlu64 :
    goesTo (machine 0 [0x00000000000021af] [(.r1, 0x1234567812345678), (.r2, 0xffffffffffffffff)])
      1 [(.r1, .holds 0xedcba987edcba987)] [] = true := by
  decide

/-- Vector V80, R187. -/
theorem test_movKAlu64 :
    goesTo (machine 0 [0xfffffffe000001b7] [])
      1 [(.r1, .holds 0xfffffffffffffffe)] [] = true := by
  decide

/-- Vector V81, R188. -/
theorem test_movXAlu64 :
    goesTo (machine 0 [0x00000000000021bf] [(.r2, 0x1122334455667788)])
      1 [(.r1, .holds 0x1122334455667788)] [] = true := by
  decide

/-- Vector V82, R189. -/
theorem test_movsx8XAlu64 :
    goesTo (machine 0 [0x00000000000821bf] [(.r2, 0x1234567812345680)])
      1 [(.r1, .holds 0xffffffffffffff80)] [] = true := by
  decide

/-- Vector V83, R190. -/
theorem test_movsx16XAlu64 :
    goesTo (machine 0 [0x00000000001021bf] [(.r2, 0x1234567812347fff)])
      1 [(.r1, .holds 0x7fff)] [] = true := by
  decide

/-- Vector V84, R191. -/
theorem test_movsx32XAlu64 :
    goesTo (machine 0 [0x00000000002021bf] [(.r2, 0x1234567880000000)])
      1 [(.r1, .holds 0xffffffff80000000)] [] = true := by
  decide

/-- Vector V85, R192. -/
theorem test_arshKAlu64 :
    goesTo (machine 0 [0x0000003c000001c7] [(.r1, 0x8000000000000000)])
      1 [(.r1, .holds 0xfffffffffffffff8)] [] = true := by
  decide

/-- Vector V86, R193. -/
theorem test_arshXAlu64 :
    goesTo (machine 0 [0x00000000000021cf] [(.r1, 0x4000000000000000), (.r2, 0x7e)])
      1 [(.r1, .holds 0x1)] [] = true := by
  decide

/-- Vector V88, R203. -/
theorem test_endToLeAlu16 :
    goesTo (machineOn .big 0 [0x00000010000001d4] [(.r1, 0x1122334455667788)] [])
      1 [(.r1, .holds 0x8877)] [] = true := by
  decide

/-- Vector V90, R204. -/
theorem test_endToLeAlu32 :
    goesTo (machineOn .big 0 [0x00000020000001d4] [(.r1, 0x1122334455667788)] [])
      1 [(.r1, .holds 0x88776655)] [] = true := by
  decide

/-- Vector V92, R205. -/
theorem test_endToLeAlu64 :
    goesTo (machineOn .big 0 [0x00000040000001d4] [(.r1, 0x1122334455667788)] [])
      1 [(.r1, .holds 0x8877665544332211)] [] = true := by
  decide

/-- Vector V93, R206. -/
theorem test_endToBeAlu16 :
    goesTo (machine 0 [0x00000010000001dc] [(.r1, 0x1122334455667788)])
      1 [(.r1, .holds 0x8877)] [] = true := by
  decide

/-- Vector V95, R207. -/
theorem test_endToBeAlu32 :
    goesTo (machine 0 [0x00000020000001dc] [(.r1, 0x1122334455667788)])
      1 [(.r1, .holds 0x88776655)] [] = true := by
  decide

/-- Vector V97, R208. -/
theorem test_endToBeAlu64 :
    goesTo (machine 0 [0x00000040000001dc] [(.r1, 0x1122334455667788)])
      1 [(.r1, .holds 0x8877665544332211)] [] = true := by
  decide

/-- Vector V99, R209. -/
theorem test_endAlu64Swap16 :
    goesTo (machine 0 [0x00000010000001d7] [(.r1, 0x1122334455667788)])
      1 [(.r1, .holds 0x8877)] [] = true := by
  decide

/-- Vector V101, R210. -/
theorem test_endAlu64Swap32 :
    goesTo (machine 0 [0x00000020000001d7] [(.r1, 0x1122334455667788)])
      1 [(.r1, .holds 0x88776655)] [] = true := by
  decide

/-- Vector V103, R211. -/
theorem test_endAlu64Swap64 :
    goesTo (machine 0 [0x00000040000001d7] [(.r1, 0x1122334455667788)])
      1 [(.r1, .holds 0x8877665544332211)] [] = true := by
  decide

/-- Vector V158, R225. -/
theorem test_jaKJmp :
    goesTo (machine 10 [0x00000000fffd0005] [])
      8 [] [] = true := by
  decide

/-- Vector V110, R226. -/
theorem test_jeqKJmp :
    goesTo (machine 10 [0xfffffffe00030115] [(.r1, 0xfffffffffffffffe)])
      14 [] [] = true := by
  decide

/-- Vector V107, R227. -/
theorem test_jeqXJmp :
    goesTo (machine 10 [0x000000000003211d] [(.r1, 0xfffffffffffffffe), (.r2, 0xfffffffffffffffe)])
      14 [] [] = true := by
  decide

/-- Vector V113, R228. -/
theorem test_jgtKJmp :
    goesTo (machine 10 [0xfffffffe00030125] [(.r1, 0x1)])
      11 [] [] = true := by
  decide

/-- Vector V111, R229. -/
theorem test_jgtXJmp :
    goesTo (machine 10 [0x000000000003212d] [(.r1, 0xfffffffffffffffe), (.r2, 0x1)])
      14 [] [] = true := by
  decide

/-- Vector V119, R230. -/
theorem test_jgeKJmp :
    goesTo (machine 10 [0xfffffffe00030135] [(.r1, 0xfffffffffffffffe)])
      14 [] [] = true := by
  decide

/-- Vector V115, R231. -/
theorem test_jgeXJmp :
    goesTo (machine 10 [0x000000000003213d] [(.r1, 0xfffffffffffffffe), (.r2, 0x1)])
      14 [] [] = true := by
  decide

/-- Vector V124, R232. -/
theorem test_jsetKJmp :
    goesTo (machine 10 [0xfffffffe00030145] [(.r1, 0xfffffffffffffffe)])
      14 [] [] = true := by
  decide

/-- Vector V120, R233. -/
theorem test_jsetXJmp :
    goesTo (machine 10 [0x000000000003214d] [(.r1, 0xfffffffffffffffe), (.r2, 0x1)])
      11 [] [] = true := by
  decide

/-- Vector V128, R234. -/
theorem test_jneKJmp :
    goesTo (machine 10 [0xfffffffe00030155] [(.r1, 0x1)])
      14 [] [] = true := by
  decide

/-- Vector V125, R235. -/
theorem test_jneXJmp :
    goesTo (machine 10 [0x000000000003215d] [(.r1, 0xfffffffffffffffe), (.r2, 0x1)])
      14 [] [] = true := by
  decide

/-- Vector V132, R236. -/
theorem test_jsgtKJmp :
    goesTo (machine 10 [0xfffffffe00030165] [(.r1, 0x1)])
      14 [] [] = true := by
  decide

/-- Vector V131, R237. -/
theorem test_jsgtXJmp :
    goesTo (machine 10 [0x000000000003216d] [(.r1, 0x1), (.r2, 0xfffffffffffffffe)])
      14 [] [] = true := by
  decide

/-- Vector V137, R238. -/
theorem test_jsgeKJmp :
    goesTo (machine 10 [0xfffffffe00030175] [(.r1, 0x1)])
      14 [] [] = true := by
  decide

/-- Vector V135, R239. -/
theorem test_jsgeXJmp :
    goesTo (machine 10 [0x000000000003217d] [(.r1, 0x1), (.r2, 0xfffffffffffffffe)])
      14 [] [] = true := by
  decide

/-- Vector V142, R240. -/
theorem test_jltKJmp :
    goesTo (machine 10 [0xfffffffe000301a5] [(.r1, 0x1)])
      14 [] [] = true := by
  decide

/-- Vector V140, R241. -/
theorem test_jltXJmp :
    goesTo (machine 10 [0x00000000000321ad] [(.r1, 0x1), (.r2, 0xfffffffffffffffe)])
      14 [] [] = true := by
  decide

/-- Vector V147, R242. -/
theorem test_jleKJmp :
    goesTo (machine 10 [0xfffffffe000301b5] [(.r1, 0x1)])
      14 [] [] = true := by
  decide

/-- Vector V145, R243. -/
theorem test_jleXJmp :
    goesTo (machine 10 [0x00000000000321bd] [(.r1, 0x1), (.r2, 0xfffffffffffffffe)])
      14 [] [] = true := by
  decide

/-- Vector V151, R244. -/
theorem test_jsltKJmp :
    goesTo (machine 10 [0xfffffffe000301c5] [(.r1, 0x1)])
      11 [] [] = true := by
  decide

/-- Vector V149, R245. -/
theorem test_jsltXJmp :
    goesTo (machine 10 [0x00000000000321cd] [(.r1, 0xfffffffffffffffe), (.r2, 0x1)])
      14 [] [] = true := by
  decide

/-- Vector V157, R246. -/
theorem test_jsleKJmp :
    goesTo (machine 10 [0xfffffffe000301d5] [(.r1, 0xfffffffffffffffe)])
      14 [] [] = true := by
  decide

/-- Vector V153, R247. -/
theorem test_jsleXJmp :
    goesTo (machine 10 [0x00000000000321dd] [(.r1, 0xfffffffffffffffe), (.r2, 0x1)])
      14 [] [] = true := by
  decide

/-- Vector V165, R248. -/
theorem test_callHelperKJmp :
    goesTo { machine 0 [0x0000000700000085] [(.r1, 0x3), (.r2, 0x4), (.r5, 0x63), (.r6, 0x6)] with params := helperParams }
      1 [(.r0, .holds 0xc), (.r1, .unwritten), (.r2, .unwritten), (.r5, .unwritten)] [] = true := by
  decide

/-- Vector V169, R249. -/
theorem test_callLocalKJmp :
    goesTo (machine 10 [0x0000000500001085] [(.r0, 0x1), (.r1, 0x2), (.r6, 0x6), (.r7, 0x7), (.r10, 0x2000)])
      16 [(.r10, .holds 0x1e00), (.r6, .unwritten), (.r7, .unwritten)] [] = true := by
  decide

/-- Vector V166, R250. -/
theorem test_callBtfKJmp :
    goesTo { machine 0 [0x0000000900002085] [] with params := helperParams }
      1 [(.r0, .holds 0xabc)] [] = true := by
  decide

/-- Vector V172, R251. -/
theorem test_exitKJmp :
    goesTo { machine 16 [0x0000000000000095] [(.r0, 0x9), (.r1, 0x1), (.r6, 0x42), (.r10, 0x1e00)] with cs := [frame] }
      11 [(.r6, .holds 0x1), (.r7, .holds 0x2), (.r9, .holds 0x4), (.r10, .holds 0x2000), (.r1, .unwritten)] [] = true := by
  decide

/-- Vector V225, R261. -/
theorem test_jaKJmp32 :
    goesTo (machine 10 [0x0000000600000006] [])
      17 [] [] = true := by
  decide

/-- Vector V178, R262. -/
theorem test_jeqKJmp32 :
    goesTo (machine 10 [0x0000000100030116] [(.r1, 0x1fffffffe)])
      11 [] [] = true := by
  decide

/-- Vector V177, R263. -/
theorem test_jeqXJmp32 :
    goesTo (machine 10 [0x000000000003211e] [(.r1, 0xffffffff00000001), (.r2, 0x1)])
      14 [] [] = true := by
  decide

/-- Vector V182, R264. -/
theorem test_jgtKJmp32 :
    goesTo (machine 10 [0x0000000100030126] [(.r1, 0x1fffffffe)])
      14 [] [] = true := by
  decide

/-- Vector V180, R265. -/
theorem test_jgtXJmp32 :
    goesTo (machine 10 [0x000000000003212e] [(.r1, 0x1fffffffe), (.r2, 0x1)])
      14 [] [] = true := by
  decide

/-- Vector V187, R266. -/
theorem test_jgeKJmp32 :
    goesTo (machine 10 [0x0000000100030136] [(.r1, 0x1fffffffe)])
      14 [] [] = true := by
  decide

/-- Vector V184, R267. -/
theorem test_jgeXJmp32 :
    goesTo (machine 10 [0x000000000003213e] [(.r1, 0x1fffffffe), (.r2, 0x1)])
      14 [] [] = true := by
  decide

/-- Vector V191, R268. -/
theorem test_jsetKJmp32 :
    goesTo (machine 10 [0x0000000100030146] [(.r1, 0x1fffffffe)])
      11 [] [] = true := by
  decide

/-- Vector V189, R269. -/
theorem test_jsetXJmp32 :
    goesTo (machine 10 [0x000000000003214e] [(.r1, 0x1fffffffe), (.r2, 0x1)])
      11 [] [] = true := by
  decide

/-- Vector V196, R270. -/
theorem test_jneKJmp32 :
    goesTo (machine 10 [0x0000000100030156] [(.r1, 0x1fffffffe)])
      14 [] [] = true := by
  decide

/-- Vector V193, R271. -/
theorem test_jneXJmp32 :
    goesTo (machine 10 [0x000000000003215e] [(.r1, 0x1fffffffe), (.r2, 0x1)])
      14 [] [] = true := by
  decide

/-- Vector V201, R272. -/
theorem test_jsgtKJmp32 :
    goesTo (machine 10 [0xfffffffe00030166] [(.r1, 0x1)])
      14 [] [] = true := by
  decide

/-- Vector V199, R273. -/
theorem test_jsgtXJmp32 :
    goesTo (machine 10 [0x000000000003216e] [(.r1, 0x1), (.r2, 0x1fffffffe)])
      14 [] [] = true := by
  decide

/-- Vector V206, R274. -/
theorem test_jsgeKJmp32 :
    goesTo (machine 10 [0xfffffffe00030176] [(.r1, 0x1)])
      14 [] [] = true := by
  decide

/-- Vector V203, R275. -/
theorem test_jsgeXJmp32 :
    goesTo (machine 10 [0x000000000003217e] [(.r1, 0x1), (.r2, 0x1fffffffe)])
      14 [] [] = true := by
  decide

/-- Vector V210, R276. -/
theorem test_jltKJmp32 :
    goesTo (machine 10 [0xfffffffe000301a6] [(.r1, 0x1)])
      14 [] [] = true := by
  decide

/-- Vector V208, R277. -/
theorem test_jltXJmp32 :
    goesTo (machine 10 [0x00000000000321ae] [(.r1, 0x1), (.r2, 0x1fffffffe)])
      14 [] [] = true := by
  decide

/-- Vector V215, R278. -/
theorem test_jleKJmp32 :
    goesTo (machine 10 [0xfffffffe000301b6] [(.r1, 0x1)])
      14 [] [] = true := by
  decide

/-- Vector V212, R279. -/
theorem test_jleXJmp32 :
    goesTo (machine 10 [0x00000000000321be] [(.r1, 0x1), (.r2, 0x1fffffffe)])
      14 [] [] = true := by
  decide

/-- Vector V218, R280. -/
theorem test_jsltKJmp32 :
    goesTo (machine 10 [0x00000001000301c6] [(.r1, 0x1fffffffe)])
      14 [] [] = true := by
  decide

/-- Vector V216, R281. -/
theorem test_jsltXJmp32 :
    goesTo (machine 10 [0x00000000000321ce] [(.r1, 0x1fffffffe), (.r2, 0x1)])
      14 [] [] = true := by
  decide

/-- Vector V223, R282. -/
theorem test_jsleKJmp32 :
    goesTo (machine 10 [0x00000001000301d6] [(.r1, 0x1fffffffe)])
      14 [] [] = true := by
  decide

/-- Vector V220, R283. -/
theorem test_jsleXJmp32 :
    goesTo (machine 10 [0x00000000000321de] [(.r1, 0x1fffffffe), (.r2, 0x1)])
      14 [] [] = true := by
  decide

/-- Vector V237, R292. -/
theorem test_memWLdx :
    goesTo (machineOn .big 0 [0x0000000000002161] [(.r2, 0x1000)] (eight 0x1000 0x88 0x77 0x66 0x55 0x44 0x33 0x22 0x11))
      1 [(.r1, .holds 0x88776655)] [] = true := by
  decide

/-- Vector V233, R293. -/
theorem test_memHLdx :
    goesTo (machineOn .big 0 [0x0000000000002169] [(.r2, 0x1000)] (eight 0x1000 0x88 0x77 0x66 0x55 0x44 0x33 0x22 0x11))
      1 [(.r1, .holds 0x8877)] [] = true := by
  decide

/-- Vector V229, R294. -/
theorem test_memBLdx :
    goesTo (machineOn .big 0 [0x0000000000002171] [(.r2, 0x1000)] (eight 0x1000 0x88 0x77 0x66 0x55 0x44 0x33 0x22 0x11))
      1 [(.r1, .holds 0x88)] [] = true := by
  decide

/-- Vector V241, R295. -/
theorem test_memDwLdx :
    goesTo (machineOn .big 0 [0x0000000000002179] [(.r2, 0x1000)] (eight 0x1000 0x88 0x77 0x66 0x55 0x44 0x33 0x22 0x11))
      1 [(.r1, .holds 0x8877665544332211)] [] = true := by
  decide

/-- Vector V267, R296. -/
theorem test_memWSt :
    goesTo (machineOn .big 0 [0xfffffffefff80a62] [(.r10, 0x2000), (.r3, 0x1122334455667788)] (eight 0x1ff8 0x0 0x0 0x0 0x0 0x0 0x0 0x0 0x0))
      1 [] (eight 0x1ff8 0xff 0xff 0xff 0xfe 0x0 0x0 0x0 0x0) = true := by
  decide

/-- Vector V265, R297. -/
theorem test_memHSt :
    goesTo (machineOn .big 0 [0xfffffffefffe0a6a] [(.r10, 0x2000), (.r3, 0x1122334455667788)] (eight 0x1ff8 0x0 0x0 0x0 0x0 0x0 0x0 0x0 0x0))
      1 [] (eight 0x1ff8 0x0 0x0 0x0 0x0 0x0 0x0 0xff 0xfe) = true := by
  decide

/-- Vector V263, R298. -/
theorem test_memBSt :
    goesTo (machineOn .big 0 [0x000001ffffff0a72] [(.r10, 0x2000), (.r3, 0x1122334455667788)] (eight 0x1ff8 0x0 0x0 0x0 0x0 0x0 0x0 0x0 0x0))
      1 [] (eight 0x1ff8 0x0 0x0 0x0 0x0 0x0 0x0 0x0 0xff) = true := by
  decide

/-- Vector V269, R299. -/
theorem test_memDwSt :
    goesTo (machineOn .big 0 [0xfffffffefff80a7a] [(.r10, 0x2000), (.r3, 0x1122334455667788)] (eight 0x1ff8 0x0 0x0 0x0 0x0 0x0 0x0 0x0 0x0))
      1 [] (eight 0x1ff8 0xff 0xff 0xff 0xff 0xff 0xff 0xff 0xfe) = true := by
  decide

/-- Vector V259, R300. -/
theorem test_memWStx :
    goesTo (machineOn .big 0 [0x00000000fff83a63] [(.r10, 0x2000), (.r3, 0x1122334455667788)] (eight 0x1ff8 0x0 0x0 0x0 0x0 0x0 0x0 0x0 0x0))
      1 [] (eight 0x1ff8 0x55 0x66 0x77 0x88 0x0 0x0 0x0 0x0) = true := by
  decide

/-- Vector V257, R301. -/
theorem test_memHStx :
    goesTo (machineOn .big 0 [0x00000000fff83a6b] [(.r10, 0x2000), (.r3, 0x1122334455667788)] (eight 0x1ff8 0x0 0x0 0x0 0x0 0x0 0x0 0x0 0x0))
      1 [] (eight 0x1ff8 0x77 0x88 0x0 0x0 0x0 0x0 0x0 0x0) = true := by
  decide

/-- Vector V255, R302. -/
theorem test_memBStx :
    goesTo (machineOn .big 0 [0x00000000fff83a73] [(.r10, 0x2000), (.r3, 0x1122334455667788)] (eight 0x1ff8 0x0 0x0 0x0 0x0 0x0 0x0 0x0 0x0))
      1 [] (eight 0x1ff8 0x88 0x0 0x0 0x0 0x0 0x0 0x0 0x0) = true := by
  decide

/-- Vector V261, R303. -/
theorem test_memDwStx :
    goesTo (machineOn .big 0 [0x00000000fff83a7b] [(.r10, 0x2000), (.r3, 0x1122334455667788)] (eight 0x1ff8 0x0 0x0 0x0 0x0 0x0 0x0 0x0 0x0))
      1 [] (eight 0x1ff8 0x11 0x22 0x33 0x44 0x55 0x66 0x77 0x88) = true := by
  decide

/-- Vector V251, R305. -/
theorem test_memsxWLdx :
    goesTo (machineOn .big 0 [0x0000000000002181] [(.r2, 0x1000)] (eight 0x1000 0x88 0x77 0x66 0x55 0x44 0x33 0x22 0x11))
      1 [(.r1, .holds 0xffffffff88776655)] [] = true := by
  decide

/-- Vector V247, R306. -/
theorem test_memsxHLdx :
    goesTo (machineOn .big 0 [0x0000000000002189] [(.r2, 0x1000)] (eight 0x1000 0x88 0x77 0x66 0x55 0x44 0x33 0x22 0x11))
      1 [(.r1, .holds 0xffffffffffff8877)] [] = true := by
  decide

/-- Vector V242, R307. -/
theorem test_memsxBLdx :
    goesTo (machineOn .little 0 [0x0000000000002191] [(.r2, 0x1000)] (eight 0x1000 0x88 0x77 0x66 0x55 0x44 0x33 0x22 0x11))
      1 [(.r1, .holds 0xffffffffffffff88)] [] = true := by
  decide

/-- Vector V281, R324. -/
theorem test_atomicWStxAdd :
    goesTo (machineOn .little 0 [0x00000000000021c3] [(.r0, 0x123456789abcdef), (.r1, 0x1ff8), (.r2, 0xfedcba9876543211)] (eight 0x1ff8 0xef 0xcd 0xab 0x89 0x67 0x45 0x23 0x1))
      1 [] [(0x1ff8, 0x0), (0x1ff9, 0x0), (0x1ffa, 0x0), (0x1ffb, 0x0)] = true := by
  decide

/-- Vector V283, R325. -/
theorem test_atomicDwStxAdd :
    goesTo (machineOn .little 0 [0x00000000000021db] [(.r0, 0x123456789abcdef), (.r1, 0x1ff8), (.r2, 0xfedcba9876543211)] (eight 0x1ff8 0xef 0xcd 0xab 0x89 0x67 0x45 0x23 0x1))
      1 [] (eight 0x1ff8 0x0 0x0 0x0 0x0 0x0 0x0 0x0 0x0) = true := by
  decide

/-- Vector V282, R326. -/
theorem test_atomicWStxAddFetch :
    goesTo (machineOn .little 0 [0x00000001000021c3] [(.r0, 0x123456789abcdef), (.r1, 0x1ff8), (.r2, 0xfedcba9876543211)] (eight 0x1ff8 0xef 0xcd 0xab 0x89 0x67 0x45 0x23 0x1))
      1 [(.r2, .holds 0x89abcdef)] [(0x1ff8, 0x0), (0x1ff9, 0x0), (0x1ffa, 0x0), (0x1ffb, 0x0)] = true := by
  decide

/-- Vector V284, R327. -/
theorem test_atomicDwStxAddFetch :
    goesTo (machineOn .little 0 [0x00000001000021db] [(.r0, 0x123456789abcdef), (.r1, 0x1ff8), (.r2, 0xfedcba9876543211)] (eight 0x1ff8 0xef 0xcd 0xab 0x89 0x67 0x45 0x23 0x1))
      1 [(.r2, .holds 0x123456789abcdef)] (eight 0x1ff8 0x0 0x0 0x0 0x0 0x0 0x0 0x0 0x0) = true := by
  decide

/-- Vector V285, R328. -/
theorem test_atomicWStxOr :
    goesTo (machineOn .little 0 [0x00000040000021c3] [(.r0, 0x123456789abcdef), (.r1, 0x1ff8), (.r2, 0xfedcba9876543211)] (eight 0x1ff8 0xef 0xcd 0xab 0x89 0x67 0x45 0x23 0x1))
      1 [] [(0x1ff8, 0xff), (0x1ff9, 0xff), (0x1ffa, 0xff), (0x1ffb, 0xff)] = true := by
  decide

/-- Vector V287, R329. -/
theorem test_atomicDwStxOr :
    goesTo (machineOn .little 0 [0x00000040000021db] [(.r0, 0x123456789abcdef), (.r1, 0x1ff8), (.r2, 0xfedcba9876543211)] (eight 0x1ff8 0xef 0xcd 0xab 0x89 0x67 0x45 0x23 0x1))
      1 [] (eight 0x1ff8 0xff 0xff 0xff 0xff 0xff 0xff 0xff 0xff) = true := by
  decide

/-- Vector V286, R330. -/
theorem test_atomicWStxOrFetch :
    goesTo (machineOn .little 0 [0x00000041000021c3] [(.r0, 0x123456789abcdef), (.r1, 0x1ff8), (.r2, 0xfedcba9876543211)] (eight 0x1ff8 0xef 0xcd 0xab 0x89 0x67 0x45 0x23 0x1))
      1 [(.r2, .holds 0x89abcdef)] [(0x1ff8, 0xff), (0x1ff9, 0xff), (0x1ffa, 0xff), (0x1ffb, 0xff)] = true := by
  decide

/-- Vector V288, R331. -/
theorem test_atomicDwStxOrFetch :
    goesTo (machineOn .little 0 [0x00000041000021db] [(.r0, 0x123456789abcdef), (.r1, 0x1ff8), (.r2, 0xfedcba9876543211)] (eight 0x1ff8 0xef 0xcd 0xab 0x89 0x67 0x45 0x23 0x1))
      1 [(.r2, .holds 0x123456789abcdef)] (eight 0x1ff8 0xff 0xff 0xff 0xff 0xff 0xff 0xff 0xff) = true := by
  decide

/-- Vector V289, R332. -/
theorem test_atomicWStxAnd :
    goesTo (machineOn .little 0 [0x00000050000021c3] [(.r0, 0x123456789abcdef), (.r1, 0x1ff8), (.r2, 0xfedcba9876543211)] (eight 0x1ff8 0xef 0xcd 0xab 0x89 0x67 0x45 0x23 0x1))
      1 [] [(0x1ff8, 0x1), (0x1ff9, 0x0), (0x1ffa, 0x0), (0x1ffb, 0x0)] = true := by
  decide

/-- Vector V291, R333. -/
theorem test_atomicDwStxAnd :
    goesTo (machineOn .little 0 [0x00000050000021db] [(.r0, 0x123456789abcdef), (.r1, 0x1ff8), (.r2, 0xfedcba9876543211)] (eight 0x1ff8 0xef 0xcd 0xab 0x89 0x67 0x45 0x23 0x1))
      1 [] (eight 0x1ff8 0x1 0x0 0x0 0x0 0x0 0x0 0x0 0x0) = true := by
  decide

/-- Vector V290, R334. -/
theorem test_atomicWStxAndFetch :
    goesTo (machineOn .little 0 [0x00000051000021c3] [(.r0, 0x123456789abcdef), (.r1, 0x1ff8), (.r2, 0xfedcba9876543211)] (eight 0x1ff8 0xef 0xcd 0xab 0x89 0x67 0x45 0x23 0x1))
      1 [(.r2, .holds 0x89abcdef)] [(0x1ff8, 0x1), (0x1ff9, 0x0), (0x1ffa, 0x0), (0x1ffb, 0x0)] = true := by
  decide

/-- Vector V292, R335. -/
theorem test_atomicDwStxAndFetch :
    goesTo (machineOn .little 0 [0x00000051000021db] [(.r0, 0x123456789abcdef), (.r1, 0x1ff8), (.r2, 0xfedcba9876543211)] (eight 0x1ff8 0xef 0xcd 0xab 0x89 0x67 0x45 0x23 0x1))
      1 [(.r2, .holds 0x123456789abcdef)] (eight 0x1ff8 0x1 0x0 0x0 0x0 0x0 0x0 0x0 0x0) = true := by
  decide

/-- Vector V293, R336. -/
theorem test_atomicWStxXor :
    goesTo (machineOn .little 0 [0x000000a0000021c3] [(.r0, 0x123456789abcdef), (.r1, 0x1ff8), (.r2, 0xfedcba9876543211)] (eight 0x1ff8 0xef 0xcd 0xab 0x89 0x67 0x45 0x23 0x1))
      1 [] [(0x1ff8, 0xfe), (0x1ff9, 0xff), (0x1ffa, 0xff), (0x1ffb, 0xff)] = true := by
  decide

/-- Vector V295, R337. -/
theorem test_atomicDwStxXor :
    goesTo (machineOn .little 0 [0x000000a0000021db] [(.r0, 0x123456789abcdef), (.r1, 0x1ff8), (.r2, 0xfedcba9876543211)] (eight 0x1ff8 0xef 0xcd 0xab 0x89 0x67 0x45 0x23 0x1))
      1 [] (eight 0x1ff8 0xfe 0xff 0xff 0xff 0xff 0xff 0xff 0xff) = true := by
  decide

/-- Vector V294, R338. -/
theorem test_atomicWStxXorFetch :
    goesTo (machineOn .little 0 [0x000000a1000021c3] [(.r0, 0x123456789abcdef), (.r1, 0x1ff8), (.r2, 0xfedcba9876543211)] (eight 0x1ff8 0xef 0xcd 0xab 0x89 0x67 0x45 0x23 0x1))
      1 [(.r2, .holds 0x89abcdef)] [(0x1ff8, 0xfe), (0x1ff9, 0xff), (0x1ffa, 0xff), (0x1ffb, 0xff)] = true := by
  decide

/-- Vector V296, R339. -/
theorem test_atomicDwStxXorFetch :
    goesTo (machineOn .little 0 [0x000000a1000021db] [(.r0, 0x123456789abcdef), (.r1, 0x1ff8), (.r2, 0xfedcba9876543211)] (eight 0x1ff8 0xef 0xcd 0xab 0x89 0x67 0x45 0x23 0x1))
      1 [(.r2, .holds 0x123456789abcdef)] (eight 0x1ff8 0xfe 0xff 0xff 0xff 0xff 0xff 0xff 0xff) = true := by
  decide

/-- Vector V297, R340. -/
theorem test_atomicWStxXchg :
    goesTo (machineOn .little 0 [0x000000e1000021c3] [(.r0, 0x123456789abcdef), (.r1, 0x1ff8), (.r2, 0xfedcba9876543211)] (eight 0x1ff8 0xef 0xcd 0xab 0x89 0x67 0x45 0x23 0x1))
      1 [(.r2, .holds 0x89abcdef)] [(0x1ff8, 0x11), (0x1ff9, 0x32), (0x1ffa, 0x54), (0x1ffb, 0x76)] = true := by
  decide

/-- Vector V298, R341. -/
theorem test_atomicDwStxXchg :
    goesTo (machineOn .little 0 [0x000000e1000021db] [(.r0, 0x123456789abcdef), (.r1, 0x1ff8), (.r2, 0xfedcba9876543211)] (eight 0x1ff8 0xef 0xcd 0xab 0x89 0x67 0x45 0x23 0x1))
      1 [(.r2, .holds 0x123456789abcdef)] (eight 0x1ff8 0x11 0x32 0x54 0x76 0x98 0xba 0xdc 0xfe) = true := by
  decide

/-- Vector V299, R342. -/
theorem test_atomicWStxCmpxchg :
    goesTo (machineOn .little 0 [0x000000f1000021c3] [(.r0, 0x123456789abcdef), (.r1, 0x1ff8), (.r2, 0xfedcba9876543211)] (eight 0x1ff8 0xef 0xcd 0xab 0x89 0x67 0x45 0x23 0x1))
      1 [(.r0, .holds 0x89abcdef)] [(0x1ff8, 0x11), (0x1ff9, 0x32), (0x1ffa, 0x54), (0x1ffb, 0x76)] = true := by
  decide

/-- Vector V301, R343. -/
theorem test_atomicDwStxCmpxchg :
    goesTo (machineOn .little 0 [0x000000f1000021db] [(.r0, 0x123456789abcdef), (.r1, 0x1ff8), (.r2, 0xfedcba9876543211)] (eight 0x1ff8 0xef 0xcd 0xab 0x89 0x67 0x45 0x23 0x1))
      1 [] (eight 0x1ff8 0x11 0x32 0x54 0x76 0x98 0xba 0xdc 0xfe) = true := by
  decide

/-- Vector V310, R351. -/
theorem test_immDwLd0 :
    goesTo (machine 0 [0x5566778800000118, 0x1122334400000000] [])
      2 [(.r1, .holds 0x1122334455667788)] [] = true := by
  decide

/-- Vector V313, R352. -/
theorem test_immDwLd1 :
    goesTo { machine 0 [0x0000000300001118, 0x0000000000000000] [] with params := mapParams }
      2 [(.r1, .holds 0x7003)] [] = true := by
  decide

/-- Vector V314, R353. -/
theorem test_immDwLd2 :
    goesTo { machine 0 [0x0000000300002118, 0xfffffff800000000] [] with params := mapParams }
      2 [(.r1, .holds 0x17f8)] [] = true := by
  decide

/-- Vector V315, R354. -/
theorem test_immDwLd3 :
    goesTo { machine 0 [0x0000000300003118, 0x0000000000000000] [] with params := mapParams }
      2 [(.r1, .holds 0x1400)] [] = true := by
  decide

/-- Vector V316, R355. -/
theorem test_immDwLd4 :
    goesTo { machine 4 [0x0000000200004118, 0x0000000000000000] [] with params := mapParams }
      6 [(.r1, .holds 0xc0de0038)] [] = true := by
  decide

/-- Vector V317, R356. -/
theorem test_immDwLd5 :
    goesTo { machine 0 [0x0000000300005118, 0x0000000000000000] [] with params := mapParams }
      2 [(.r1, .holds 0x7103)] [] = true := by
  decide

/-- Vector V318, R357. -/
theorem test_immDwLd6 :
    goesTo { machine 0 [0x0000000300006118, 0x0000001000000000] [] with params := mapParams }
      2 [(.r1, .holds 0x1810)] [] = true := by
  decide

/-- Vector V326, 30_encoding.md R96 (b). -/
theorem test_illegalInstruction :
    faultsWith (machine 0 [0x000000000000218c] [(.r1, 1), (.r2, 2)])
      (.illegalInstruction 0 0x000000000000218c none) = true := by
  decide

/-- Vector V320, R351: reserved bits of the second slot. -/
theorem test_illegalWide :
    faultsWith (machine 0 [0x0000000100000118, 0x0000000200000001] [])
      (.illegalInstruction 0 0x0000000100000118 (some 0x0000000200000001)) = true := by
  decide

/-- Vector V357, 60_exceptions.md R384. -/
theorem test_fetchOutOfProgram :
    faultsWith { machine 8 [] [] with text := List.replicate 8 Slot.zero } (.fetchOutOfProgram 8) = true := by
  decide

/-- Vector V356, 60_exceptions.md R385. -/
theorem test_badJumpTarget :
    faultsWith (machine 0 [0x00000000fffe0005] []) (.badJumpTarget 0 (-1)) = true := by
  decide

/-- Vector V354, 60_exceptions.md R392: the destination is reported first. -/
theorem test_unwrittenRegister :
    faultsWith (machine 0 [0x000000000000210f] []) (.unwrittenRegister 0 .r1) = true := by
  decide

/-- Vector V278, R294: the address wraps to 8. -/
theorem test_memoryNotAdmitted :
    faultsWith (machine 0 [0x0000000000102171] [(.r2, 0xfffffffffffffff8)])
      (.memoryNotAdmitted 0 8 .b .read) = true := by
  decide

/-- Vector V306, R324: atomics are aligned under `allow` too. -/
theorem test_misalignedAtomic :
    faultsWith
      { machine 0 [0x00000000000221c3] [(.r1, 0x1ff8), (.r2, 1)] with
        params := { Params.recommended with alignPolicy := .allow } }
      (.memoryNotAdmitted 0 0x1ffa .w .atomic) = true := by
  decide

/-- Vector V168, R248. -/
theorem test_unknownHelper :
    faultsWith { machine 0 [0x0000000800000085] [(.r1, 3), (.r2, 4)] with params := helperParams }
      (.unknownHelper 0 8 .static) = true := by
  decide

/-- Vector V170, R249. -/
theorem test_callDepthExceeded :
    faultsWith { machine 10 [0x0000000500001085] [(.r10, 0x2000)] with cs := List.replicate 7 frame }
      (.callDepthExceeded 10) = true := by
  decide

/-- Vector V319, R352. -/
theorem test_unresolvedPlatformRef :
    faultsWith (machine 0 [0x0000000300001118, 0] []) (.unresolvedPlatformRef 0 .mapFd 3) = true := by
  decide

/-- Vector V324, R366. -/
theorem test_packetRefused :
    (match step { machine 0 [0x0000000e00000020] [] with
        params := { Params.recommended with groups := .packet :: Params.recommended.groups } } with
      | .refused r => decide (r = .packetSemanticsNotInSource)
      | _ => false) = true := by
  decide

/-- Vector V173, R251: the outermost EXIT ends the run. -/
theorem test_exited :
    (runStep (machine 16 [0x0000000000000095] [(.r0, 9)])).status = .exited 9 := by
  decide

/-- 95_test_vectors.md, after V357: the second slot of a wide instruction is no target (43_jump.md R222). -/
theorem test_jumpIntoWide :
    faultsWith (machine 0 [0x0000000000010005, 0x0000009500000018, 0] []) (.badJumpTarget 0 2) = true := by
  decide

/-- An instruction placed after reset is the one the next step runs: `MOV_K_ALU64 r1, -1` (R187). -/
theorem test_withFetchWord :
    goesTo (State.reset.withFetchWord 64 0xffffffff000001b7) 1 [(.r1, .holds 0xffffffffffffffff)] [] = true := by
  decide

/-! ### Well-formedness: one ill-formed term for each check -/

/-- 30_encoding.md R96 (m): packet is not in `GROUPS`. -/
theorem test_wellFormed_group : (Instr.absWLd 14).wellFormed Params.recommended = false := by decide

/-- Vector V352: divmul32 is not in `GROUPS`. -/
theorem test_wellFormed_groupDivmul :
    (Instr.mulKAlu .r1 3).wellFormed { Params.recommended with groups := [.base32, .base64] } = false := by decide

/-- Vector V336, 10_state.md R23 (g): R10 is read-only. -/
theorem test_wellFormed_readOnly : (Instr.movKAlu64 .r10 0).wellFormed Params.recommended = false := by decide

/-- Vector V309: an exchange would write R10. -/
theorem test_wellFormed_exchange : (Instr.atomicDwStxXchg .r1 .r10 0).wellFormed Params.recommended = false := by
  decide

/-- Vector V337: R10 may be written where `R10_READONLY` is false. -/
theorem test_wellFormed_writable :
    (Instr.movKAlu64 .r10 0).wellFormed { Params.recommended with r10Readonly := false } = true := by decide

/-- 00_scope.md R2: base64 brings base32 with it. -/
theorem test_wellFormed_included :
    (Instr.addKAlu .r1 0).wellFormed { Params.recommended with groups := [.base64] } = true := by decide

/-- Fields that are unused are zero (30_encoding.md R88), and register numbers stop at 10 (R90): vectors V328, V330,
V334, V335, V338, V342. -/
theorem test_decode_refuses :
    decodeTableWord 64 0x0000000500002104 = none ∧ decodeTableWord 64 0x000000000001210f = none ∧
    decodeTableWord 64 0x0000000500000bb7 = none ∧ decodeTableWord 64 0x000000000000f1bf = none ∧
    decodeTableWord 64 0x00000008000001d4 = none ∧ decodeTableWord 64 0x0000000100003085 = none := by
  decide

/-! ### Witnesses: the hypotheses of each statement, met together -/

/-- Two registers that hold values, at slot 3 of a program of 20 slots. -/
def two : State := machine 3 [0x0000000000000095] [(.r1, 0x1ff8), (.r2, 0xfffffffffffffffe)]

theorem witness_DecodedFieldsAreEncoded :
    decode ⟨0x04, 1, 0, 0, 0xffffffff⟩ none = .ok (.addKAlu .r1 0xffffffff) ∧
    decode ⟨0x18, 1, 0, 0, 1⟩ (some ⟨0, 0, 0, 0, 2⟩) = .ok (.immDwLd0 .r1 1 2) := by
  decide

theorem witness_UnlistedOpcodesRefused :
    decode ⟨0x00, 0, 0, 0, 0⟩ none = .error .unknownOpcode ∧ decode ⟨0xff, 1, 1, 1, 1⟩ none = .error .unknownOpcode ∧
    decode ⟨0x04, 1, 0, 0, 0⟩ none = .ok (.addKAlu .r1 0) ∧
    decode ⟨0xdb, 1, 2, 0, 0⟩ none = .ok (.atomicDwStxAdd .r1 .r2 0) := by
  decide

/-- One instruction that completes, one that faults and one that is refused, each decoded at the pc. -/
theorem witness_StepRunsDecodedInstruction :
    two.status = .running ∧ two.text[two.pc]? = some ⟨0x95, 0, 0, 0, 0, 0, 0, 0⟩ ∧
    decodeSlots .little ⟨0x95, 0, 0, 0, 0, 0, 0, 0⟩ two.text[two.pc + 1]? = .ok .exitKJmp ∧
    Instr.exitKJmp.wellFormed two.params = true ∧
    exec .exitKJmp two = .fault (.unwrittenRegister 3 .r0) ∧
    exec .exitKJmp { two with cs := [frame] } = .next (leaveFunction { two with cs := [frame] } frame []) ∧
    exec (.absWLd 0) { two with params := { two.params with groups := [.base32, .packet] } } =
      .refused .packetSemanticsNotInSource := by
  refine ⟨rfl, rfl, rfl, rfl, rfl, rfl, rfl⟩

/-- At the end of the text, and in its last slot for a wide instruction. -/
theorem witness_FetchOutOfProgramFaults :
    (machine 20 [] []).status = .running ∧ (machine 20 [] []).text.length = (machine 20 [] []).pc ∧
    (machine 19 [0x0000000000000118] []).text[19]? = some ⟨0x18, 1, 0, 0, 0, 0, 0, 0⟩ ∧
    (machine 19 [0x0000000000000118] []).text.length = (machine 19 [0x0000000000000118] []).pc + 1 := by
  refine ⟨rfl, rfl, rfl, rfl⟩

/-- An undefined word, a wide one with reserved bits, an unsupported group and a write to R10. -/
theorem witness_IllegalWordFaults :
    decodeSlots .little ⟨0x8c, 0x21, 0, 0, 0, 0, 0, 0⟩ none = .error .unknownOpcode ∧
    decodeSlots .little ⟨0x18, 1, 0, 0, 1, 0, 0, 0⟩ (some ⟨1, 0, 0, 0, 2, 0, 0, 0⟩) = .error .unusedField ∧
    decodeSlots .little ⟨0x20, 0, 0, 0, 14, 0, 0, 0⟩ none = .ok (.absWLd 14) ∧
    two.params.supports (Instr.absWLd 14).group = false ∧
    decodeSlots .little ⟨0xb7, 0x0a, 0, 0, 0, 0, 0, 0⟩ none = .ok (.movKAlu64 .r10 0) ∧
    (Instr.movKAlu64 .r10 0).writesReg = some .r10 ∧ two.params.r10Readonly = true := by
  decide

theorem witness_ReadOnlyR10AndUnsupportedGroups :
    (machine 0 [0x0000000000000ab7] []).text[0]? = some (encodeSlots .little (.movKAlu64 .r10 0)).1 ∧
    (encodeSlots .little (.movKAlu64 .r10 0)).2 = none ∧
    (Instr.movKAlu64 .r10 0).writesReg = some .r10 ∧ Params.recommended.r10Readonly = true ∧
    (machine 0 [0x0000000000000a18, 0] []).text[1]? = (encodeSlots .little (.immDwLd0 .r10 0 0)).2 ∧
    (machine 0 [0x0000000e00000020] []).text[0]? = some (encodeSlots .little (.absWLd 14)).1 ∧
    (Instr.absWLd 14).group = .packet ∧ ConformanceGroup.packet ∉ Params.recommended.groups := by
  decide

/-- A run that has exited, a step that faults and a step that is refused. -/
theorem witness_OnlyRunningMachineSteps :
    (runStep (machine 16 [0x0000000000000095] [(.r0, 9)])).status ≠ .running ∧
    two.status = .running ∧ step two = .fault (.unwrittenRegister 3 .r0) ∧
    step { machine 0 [0x0000000e00000020] [] with params := { Params.recommended with groups := [.packet] } } =
      .refused .packetSemanticsNotInSource := by
  refine ⟨by decide, rfl, rfl, rfl⟩

/-- A program-local call with frames of 8 bytes, at a depth that has been called at before, and its return: the two steps
the invariants are about. -/
def calling : State :=
  { machine 0 [0x0000000100001085, 0x0000000000000095, 0x0000000000000095] [(.r10, 0x2000)] with
    params := { Params.recommended with stackSize := 8 }
    deepest := 1 }

/-- The memory after that call: the 8 bytes of the frame below 0x1ff8 are free values. -/
def calledMemory : Memory := Memory.putAll [] (frameContents 0 0x1ff8 8)

/-- The state after that call. -/
def called : State :=
  { calling with
    pc := 2
    regs := (regsOf []).set .r10 (.holds 0x1ff8)
    mem := calledMemory
    cs := [⟨1, some ⟨.unwritten, .unwritten, .unwritten, .unwritten, .holds 0x2000⟩⟩]
    env := Config.envNext 0 calledMemory }

theorem witness_StepKeepsInv : Inv calling ∧ step calling = .next called ∧ Inv called ∧
    step called = .next { calling with
      pc := 1, mem := calledMemory, env := Config.envNext (Config.envNext 0 calledMemory) calledMemory } := by
  refine ⟨⟨rfl, ?_, ?_, ?_, rfl, ?_⟩, rfl, ⟨rfl, ?_, ?_, ?_, rfl, ?_⟩, rfl⟩ <;> decide

theorem witness_StepKeepsFrameInv : FrameInv calling ∧ step calling = .next called ∧ FrameInv called := by
  refine ⟨⟨rfl, rfl, rfl, trivial⟩, rfl, ⟨rfl, rfl, rfl, ⟨_, rfl, rfl⟩, trivial⟩⟩

/-- A store, and a helper that stores, on the last byte of admitted memory. -/
theorem witness_MemoryChangesOnlyWhereAdmitted :
    goesTo (machine 0 [0x0000000000003173] [(.r1, 0x1fff), (.r3, 5)]) 1 [] [(0x1fff, 5)] = true ∧
    Memory.find (machine 0 [0x0000000000003173] [(.r1, 0x1fff), (.r3, 5)]).mem 0x1fff = none ∧
    goesTo
      { machine 0 [0x0000000700000085] [] with
        params := { Params.recommended with
          helpersStatic := [(7, { nargs := 0, known := [{ args := [], first := ⟨0, [(0x1fff, 5), (0x2000, 6)]⟩ }] })]
          helperMayWrite := [⟨0x1000, 0x1000⟩] } }
      1 [(.r0, .holds 0)] [(0x1fff, 5)] = true := by
  decide

/-- 20_memory.md R63 (a): at the first call at a depth, the bytes of the frame are as the program last wrote them. -/
theorem test_firstFrameKeepsMemory :
    goesTo { calling with deepest := 0, mem := [(0x1ff0, 5), (0x1ff8, 6)] } 2 [(.r10, .holds 0x1ff8)]
      [(0x1ff0, 5), (0x1ff8, 6)] = true := by
  decide

/-- A byte of the reused frame of the called function, the lowest of the eight. -/
theorem witness_MemoryChangesOnlyWhereAdmitted_frame :
    step calling = .next called ∧ Memory.find calling.mem 0x1ff0 = none ∧
    Memory.find called.mem 0x1ff0 = some (Config.frameByte 0 0x1ff0) ∧
    (0x1ff0 : Word) = 0x1ff8 - BitVec.ofNat 64 (7 + 1) := by
  refine ⟨rfl, rfl, rfl, rfl⟩

theorem witness_R10ChangesOnlyByCallAndExit :
    calling.params.r10Readonly = true ∧ step calling = .next called ∧ called.reg .r10 ≠ calling.reg .r10 := by
  refine ⟨rfl, rfl, by decide⟩

theorem witness_CallStackChangesOnlyByCallAndExit : step calling = .next called ∧ called.cs ≠ calling.cs := by
  refine ⟨rfl, by decide⟩

theorem witness_RunEndsOnlyByOutermostExit :
    step (machine 16 [0x0000000000000095] [(.r0, 9)]) =
      .next { machine 16 [0x0000000000000095] [(.r0, 9)] with
        status := .exited 9, env := Config.envNext 0 [] } := by
  rfl

theorem witness_OnlyJumpsSetThePc :
    setsPc (.movKAlu64 .r1 1) = false ∧ exec (.movKAlu64 .r1 1) two = .next ((two.setReg .r1 1).advance 1) ∧
    setsPc (.immDwLd0 .r1 1 0) = false ∧ exec (.immDwLd0 .r1 1 0) two = .next ((two.setReg .r1 1).advance 2) := by
  refine ⟨rfl, rfl, rfl, rfl⟩

/-- The registers of `two` serve every statement on register operands. -/
theorem witness_Alu32AddSubtractMultiply :
    two.reg .r1 = .holds 0x1ff8 ∧ two.reg .r2 = .holds 0xfffffffffffffffe := by decide

theorem witness_Alu32UnsignedDivideModulo :
    two.reg .r1 = .holds 0x1ff8 ∧ two.reg .r2 = .holds 0xfffffffffffffffe := by decide

theorem witness_Alu32Bitwise :
    two.reg .r1 = .holds 0x1ff8 ∧ two.reg .r2 = .holds 0xfffffffffffffffe := by decide

theorem witness_Alu64AddSubtractMultiply :
    two.reg .r1 = .holds 0x1ff8 ∧ two.reg .r2 = .holds 0xfffffffffffffffe := by decide

theorem witness_Alu64UnsignedDivideModulo :
    two.reg .r1 = .holds 0x1ff8 ∧ two.reg .r2 = .holds 0xfffffffffffffffe := by decide

theorem witness_Alu64Bitwise :
    two.reg .r1 = .holds 0x1ff8 ∧ two.reg .r2 = .holds 0xfffffffffffffffe := by decide

theorem witness_Alu32MoveNegate : two.reg .r1 = .holds 0x1ff8 ∧ two.reg .r2 = .holds 0xfffffffffffffffe := by decide

theorem witness_Alu64MoveNegate : two.reg .r1 = .holds 0x1ff8 ∧ two.reg .r2 = .holds 0xfffffffffffffffe := by decide

theorem witness_ShiftsMaskTheAmount :
    two.reg .r1 = .holds 0x1ff8 ∧ two.reg .r2 = .holds 0xfffffffffffffffe := by decide

theorem witness_SignedDivisionTruncates :
    two.reg .r1 = .holds 0x1ff8 ∧ two.reg .r2 = .holds 0xfffffffffffffffe := by decide

/-- A divisor whose low half is zero, and one that is zero. -/
theorem witness_ZeroDivisorsAreDefined :
    (machine 0 [] [(.r1, 7), (.r2, 0x100000000)]).reg .r1 = .holds 7 ∧
    (machine 0 [] [(.r1, 7), (.r2, 0x100000000)]).reg .r2 = .holds 0x100000000 ∧
    (0x100000000 : Word).toNat % 2 ^ 32 = 0 ∧ (machine 0 [] [(.r1, 7), (.r2, 0)]).reg .r2 = .holds 0 := by
  decide

/-- Two states that differ in the upper halves of their registers alone. -/
theorem witness_Alu32IgnoresUpperHalves :
    (Instr.addXAlu .r1 .r2).fields.opcode.toNat % 8 = 4 ∧ (Instr.addXAlu .r1 .r2).fields.opcode.toNat / 16 ≠ 13 ∧
    (Instr.addXAlu .r1 .r2).writesReg = some .r1 ∧
    (∀ r v v', (machine 0 [] [(.r1, 5), (.r2, 6)]).reg r = .holds v →
      (machine 0 [] [(.r1, 0x700000005), (.r2, 0x900000006)]).reg r = .holds v' →
      v.setWidth 32 = v'.setWidth 32) ∧
    exec (.addXAlu .r1 .r2) (machine 0 [] [(.r1, 5), (.r2, 6)]) =
      .next (((machine 0 [] [(.r1, 5), (.r2, 6)]).setReg .r1 11).advance 1) ∧
    exec (.addXAlu .r1 .r2) (machine 0 [] [(.r1, 0x700000005), (.r2, 0x900000006)]) =
      .next (((machine 0 [] [(.r1, 0x700000005), (.r2, 0x900000006)]).setReg .r1 11).advance 1) := by
  refine ⟨rfl, by decide, rfl, ?_, rfl, rfl⟩
  intro r v v' h h'
  cases r <;> first | cases h; cases h'; rfl | cases h

theorem witness_ArithmeticNeverFaultsOnValues :
    (Instr.sdivXAlu .r1 .r2).fields.opcode.toNat % 8 = 4 ∧ (Instr.endAlu64Swap16 .r1).fields.opcode.toNat % 8 = 7 ∧
    readsOf (.sdivXAlu .r1 .r2) = [.r1, .r2] ∧ readsOf (.endAlu64Swap16 .r1) = [.r1] ∧
    two.reg .r1 = .holds 0x1ff8 ∧ two.reg .r2 = .holds 0xfffffffffffffffe := by
  decide

theorem witness_EndConvertsHostByteOrder :
    two.reg .r1 = .holds 0x1ff8 ∧ two.params.hostEndian = .little ∧
    (machineOn .big 0 [] [(.r1, 0x1ff8)] []).reg .r1 = .holds 0x1ff8 ∧
    (machineOn .big 0 [] [(.r1, 0x1ff8)] []).params.hostEndian = .big := by
  decide

theorem witness_EndAlu64ReversesBytes : two.reg .r1 = .holds 0x1ff8 := by decide

/-- From slot 3 of 20: the first and the last legal target, and the two next to them that are not. -/
theorem witness_UnconditionalJumpsByDisplacement :
    legalTarget two.text (two.pc + 1 + (0xfffc : BitVec 16).toInt) = true ∧
    legalTarget two.text (two.pc + 1 + (0xfffb : BitVec 16).toInt) = false ∧
    legalTarget two.text (two.pc + 1 + (15 : BitVec 16).toInt) = true ∧
    legalTarget two.text (two.pc + 1 + (16 : BitVec 16).toInt) = false := by
  decide

/-- Both outcomes of a comparison, with a legal and an illegal target. -/
theorem witness_ConditionalJumps64 :
    two.reg .r1 = .holds 0x1ff8 ∧ two.reg .r2 = .holds 0xfffffffffffffffe ∧
    (0x1ff8 : Word) = (0x1ff8 : BitVec 32).signExtend 64 ∧ ¬(0x1ff8 : Word) = 0xfffffffffffffffe ∧
    legalTarget two.text (two.pc + 1 + (15 : BitVec 16).toInt) = true ∧
    legalTarget two.text (two.pc + 1 + (16 : BitVec 16).toInt) = false := by
  decide

theorem witness_ConditionalJumps32 :
    two.reg .r1 = .holds 0x1ff8 ∧ two.reg .r2 = .holds 0xfffffffffffffffe ∧
    (0x1ff8 : Word).toNat % 2 ^ 32 = (0x1ff8 : BitVec 32).toNat ∧
    ¬(0x1ff8 : Word).toNat % 2 ^ 32 = (0xfffffffffffffffe : Word).toNat % 2 ^ 32 ∧
    legalTarget two.text (two.pc + 1 + (15 : BitVec 16).toInt) = true ∧
    legalTarget two.text (two.pc + 1 + (16 : BitVec 16).toInt) = false := by
  decide

/-- A wide and a basic instruction start, the last slot among them, and numbers outside the program. -/
theorem witness_LegalStartsByScan :
    legalTarget (program .little 0 [0x118, 0]) 0 = true ∧
    (program .little 0 [0x118, 0])[0]? = some ⟨0x18, 1, 0, 0, 0, 0, 0, 0⟩ ∧
    legalTarget (program .little 0 [0x118, 0]) 19 = true ∧ (program .little 0 [0x118, 0])[19]? = some Slot.zero ∧
    Slot.zero.b0 ≠ 0x18 ∧ (-1 : Int) < 0 ∧ ((program .little 0 [0x118, 0]).length : Int) ≤ 20 := by
  decide

/-- The deepest call that is allowed, at the first use of its frame and at a later one, under each frame policy. -/
theorem witness_CallLocalCompletes :
    legalTarget two.text (two.pc + 1 + (15 : BitVec 32).toInt) = true ∧
    { two with cs := List.replicate 6 frame, deepest := 6 }.cs.length < two.params.maxCallDepth ∧
    { two with cs := List.replicate 6 frame, deepest := 6 }.deepest ≤
      { two with cs := List.replicate 6 frame, deepest := 6 }.cs.length ∧
    { two with cs := List.replicate 6 frame, deepest := 7 }.cs.length <
      { two with cs := List.replicate 6 frame, deepest := 7 }.deepest ∧
    ¬(List.replicate 7 frame).length < two.params.maxCallDepth ∧
    two.params.framePolicy = .freshFrame ∧ two.params.calleeFp = [] ∧ two.params.entryRegs.r10 = .holds 0x2000 ∧
    { two.params with entryRegs := noRegs }.calleeFpAt 1 = .unwritten ∧ two.params.calleeFpAt 7 = .holds 0x1200 ∧
    { two.params with framePolicy := FramePolicy.none }.framePolicy = .none := by
  decide

theorem witness_CallLocalFaults :
    legalTarget two.text (two.pc + 1 + (16 : BitVec 32).toInt) = false ∧
    legalTarget two.text (two.pc + 1 + (15 : BitVec 32).toInt) = true ∧
    two.params.maxCallDepth ≤ (List.replicate 7 frame).length := by
  decide

theorem witness_ExitReturnsToTheCaller :
    { two with cs := [frame] }.cs = frame :: [] ∧
    frame.saved = some ⟨.holds 1, .holds 2, .unwritten, .holds 4, .holds 0x2000⟩ ∧
    (⟨11, none⟩ : Frame).saved = none := by
  decide

theorem witness_OutermostExitEndsTheRun :
    two.cs = [] ∧ two.reg .r0 = .unwritten ∧ (machine 16 [] [(.r0, 9)]).cs = [] ∧
    (machine 16 [] [(.r0, 9)]).reg .r0 = .holds 9 := by
  decide

theorem witness_CalleeSavedAcrossFunction :
    calling.params.framePolicy = .freshFrame ∧
    exec (.callLocalKJmp 1) calling = .next { called with env := 0 } ∧
    (called.setReg .r0 9).cs = { called with env := 0 }.cs := by
  refine ⟨rfl, rfl, rfl⟩

/-- Helpers of two and of no arguments, each with a known case; and a case with two outcomes that applies where a byte
of memory is 5, and not where it is 6. -/
theorem witness_HelperCallCompletes :
    helperParams.helper .static 7 = some ⟨2, [⟨[3, 4], [], ⟨12, []⟩, []⟩], true⟩ ∧
    ([Reg.r1, .r2, .r3, .r4, .r5].take 2).map (machine 0 [] [(.r1, 3), (.r2, 4)]).reg = [3, 4].map RegVal.holds ∧
    helperParams.helper .btf 9 = some ⟨0, [⟨[], [], ⟨0xabc, []⟩, []⟩], true⟩ ∧
    ([Reg.r1, .r2, .r3, .r4, .r5].take 0).map (machine 0 [] []).reg = [].map RegVal.holds ∧
    caseApplies (machineOn .little 0 [] [] [(0x1800, 5)]) ⟨[], [(0x1800, 5)], ⟨1, []⟩, [⟨2, []⟩]⟩ [] = true ∧
    caseApplies (machineOn .little 0 [] [] [(0x1800, 6)]) ⟨[], [(0x1800, 5)], ⟨1, []⟩, [⟨2, []⟩]⟩ [] = false ∧
    (∀ sp ∈ helperParams.helperMayWrite, sp.holds 0x1fff = false) := by
  decide

/-- Accesses of each size that end with the last byte of admitted memory. -/
theorem witness_LoadsZeroOrSignExtend :
    two.reg .r1 = .holds 0x1ff8 ∧ two.params.accessOk (effectiveAddr 0x1ff8 7) .b .read = true ∧
    two.params.accessOk (effectiveAddr 0x1ff8 6) .h .read = true ∧
    two.params.accessOk (effectiveAddr 0x1ff8 4) .w .read = true ∧
    two.params.accessOk (effectiveAddr 0x1ff8 0) .dw .read = true := by
  decide

theorem witness_StoresOfImmediates :
    two.reg .r1 = .holds 0x1ff8 ∧ two.params.accessOk (effectiveAddr 0x1ff8 7) .b .write = true ∧
    two.params.accessOk (effectiveAddr 0x1ff8 6) .h .write = true ∧
    two.params.accessOk (effectiveAddr 0x1ff8 4) .w .write = true ∧
    two.params.accessOk (effectiveAddr 0x1ff8 0) .dw .write = true := by
  decide

theorem witness_StoresOfRegisters :
    two.reg .r1 = .holds 0x1ff8 ∧ two.reg .r2 = .holds 0xfffffffffffffffe ∧
    two.params.accessOk (effectiveAddr 0x1ff8 7) .b .write = true ∧
    two.params.accessOk (effectiveAddr 0x1ff8 6) .h .write = true ∧
    two.params.accessOk (effectiveAddr 0x1ff8 4) .w .write = true ∧
    two.params.accessOk (effectiveAddr 0x1ff8 0) .dw .write = true := by
  decide

theorem witness_AtomicsWithoutFetch :
    two.reg .r1 = .holds 0x1ff8 ∧ two.reg .r2 = .holds 0xfffffffffffffffe ∧
    two.params.accessOk (effectiveAddr 0x1ff8 4) .w .atomic = true ∧
    two.params.accessOk (effectiveAddr 0x1ff8 0) .dw .atomic = true := by
  decide

theorem witness_AtomicsWithFetchAndExchange :
    two.reg .r1 = .holds 0x1ff8 ∧ two.reg .r2 = .holds 0xfffffffffffffffe ∧
    two.params.accessOk (effectiveAddr 0x1ff8 4) .w .atomic = true ∧
    two.params.accessOk (effectiveAddr 0x1ff8 0) .dw .atomic = true := by
  decide

/-- Eight stored bytes, and values of R0 that match and do not match them. -/
theorem witness_CompareAndExchange :
    (machineOn .little 0 [] [(.r0, 0x0807060504030201)] (eight 0x1ff8 1 2 3 4 5 6 7 8)).load 0x1ff8 .dw =
      0x0807060504030201 ∧
    (machineOn .little 0 [] [(.r0, 0x0807060504030201)] (eight 0x1ff8 1 2 3 4 5 6 7 8)).load 0x1ff8 .w = 0x04030201 ∧
    (machineOn .little 0 [] [(.r0, 0x0807060504030201)] []).reg .r0 = .holds 0x0807060504030201 ∧
    (0x04030201 : Word).toNat = (0x0807060504030201 : Word).toNat % 2 ^ 32 ∧
    (0x04030201 : Word).toNat ≠ (0x0807060504030200 : Word).toNat % 2 ^ 32 ∧
    Params.recommended.accessOk 0x1ff8 .w .atomic = true ∧ Params.recommended.accessOk 0x1ff8 .dw .atomic = true := by
  decide

/-- One byte past the end of admitted memory, and one before its start. -/
theorem witness_MemoryNotAdmittedFaults :
    requestOf (.memDwStx .r1 .r2 1) = some ⟨.r1, 1, .dw, .write⟩ ∧ readsOf (.memDwStx .r1 .r2 1) = [.r1, .r2] ∧
    two.reg .r1 = .holds 0x1ff8 ∧ two.reg .r2 = .holds 0xfffffffffffffffe ∧
    two.params.accessOk (effectiveAddr 0x1ff8 1) .dw .write = false ∧
    two.params.accessOk 0x0fff .b .read = false ∧ two.params.accessOk 0x1000 .b .read = true := by
  decide

theorem witness_UnwrittenRegisterFaults :
    readsOf (.atomicDwStxCmpxchg .r1 .r2 0) = [.r1, .r2] ++ .r0 :: [] ∧
    two.reg .r1 = .holds 0x1ff8 ∧ two.reg .r2 = .holds 0xfffffffffffffffe ∧ two.reg .r0 = .unwritten := by
  decide

/-- The last four bytes of the private stack, with the loads of 20_memory.md R52. -/
theorem witness_NarrowLoadAfterWideStore :
    (∀ j < Size.w.bytes, two.params.isPrivate ((0x1ffc : Word) + BitVec.ofNat 64 j) = true) ∧
    0 + Size.b.bytes ≤ Size.w.bytes ∧ 1 + Size.h.bytes ≤ Size.w.bytes ∧
    two.params.hostEndian = .little ∧ (machineOn .big 0 [] [] []).params.hostEndian = .big ∧
    (two.store 0x1ffc .w 0x11223344).load 0x1ffc .b = 0x44 ∧
    (two.store 0x1ffc .w 0x11223344).load 0x1ffd .h = 0x2233 ∧
    ((machineOn .big 0 [] [] []).store 0x1ffc .w 0x11223344).load 0x1ffc .b = 0x11 ∧
    ((machineOn .big 0 [] [] []).store 0x1ffc .w 0x11223344).load 0x1ffd .h = 0x2233 := by
  decide

theorem witness_WideLoadsComplete :
    mapParams.mapByFd.lookup 3 = some 0x7003 ∧ mapParams.mapVal.lookup 0x7003 = some 0x1800 ∧
    mapParams.varAddr.lookup 3 = some 0x1400 ∧ mapParams.codeAddr.lookup (4, 2) = some 0xc0de0038 ∧
    mapParams.mapByIdx.lookup 3 = some 0x7103 ∧ mapParams.mapVal.lookup 0x7103 = some 0x1800 := by
  decide

/-- A map that does not exist, and one that has no value. -/
theorem witness_UnresolvedPlatformRefFaults :
    mapParams.mapByFd.lookup 4 = none ∧ mapParams.varAddr.lookup 4 = none ∧ mapParams.codeAddr.lookup (4, 3) = none ∧
    mapParams.mapByIdx.lookup 4 = none ∧
    ({ mapParams with mapVal := [] }).mapVal.lookup 0x7003 = none := by
  decide

theorem witness_PacketInstructionsStop :
    Instr.indBLd .r2 0 ∈ [.absWLd 0, .absHLd 0, .absBLd 0, .indWLd .r2 0, .indHLd .r2 0, .indBLd .r2 0] ∧
    ConformanceGroup.packet ∈ [ConformanceGroup.base32, .packet] ∧
    ConformanceGroup.packet ∉ Params.recommended.groups := by
  decide

/-- A launch that runs and four that are refused, one for each check. -/
theorem witness_LaunchChecksAndValues :
    (launch [Slot.zero] Params.recommended []).status = .running ∧
    (launch [Slot.zero] { Params.recommended with groups := [.base64] } []).status = .refused .launchWithoutBase32 ∧
    (launch [Slot.zero] { Params.recommended with entryPc := 1 } []).status = .refused .launchBadEntryPc ∧
    (launch [Slot.zero] { Params.recommended with codeAddr := [((0, 0), 0x1fff)] } []).status =
      .refused .launchCodeWritable ∧
    (launch [Slot.zero] { Params.recommended with codeAddr := [((0, 0), 0x2000)] } []).status = .running ∧
    (launch [Slot.zero] { Params.recommended with helpersBtf := [(9, { nargs := 0, returnsToNext := false })] }
      []).status = .refused .launchHelperDoesNotReturn := by
  decide

end Sys2Proof.Tests
end

section
/-!
PROOFS. The byte swaps (42_byteswap.md): END_TO_LE, END_TO_BE and END_ALU64 at the three widths.
-/
namespace Sys2Proof.Proofs

open Machine

variable {s : State} {i : Instr} {dst : Reg} {x : Word} {n : Nat}

/-- A one-slot instruction whose meaning is `unary f` completes with `f` of the value its register holds. -/
theorem completes_of_unary {f : Word → Word} (hx : s.reg dst = .holds x) (hexec : exec i s = unary f dst s)
    (hlen : i.length = 1) : Completes i s dst (f x) := by
  refine ⟨(s.setReg dst (f x)).advance 1, hexec.trans (unary_run hx), ?_⟩
  rw [hlen]
  exact wroteReg_setReg s dst (f x) 1

theorem zeroExtendLow_toNat {w n : Nat} (h : n ≤ w) (a : BitVec w) :
    (zeroExtendLow n a).toNat = a.toNat % 2 ^ n := by
  rw [zeroExtendLow, BitVec.toNat_setWidth_of_le h, BitVec.toNat_setWidth]

/-- To the host's own byte order: the low bytes as they are (00_scope.md R11). -/
theorem hostTo_same_toNat (h : n ≤ 8) (e : Endian) (x : Word) : (hostTo e e n x).toNat = x.toNat % 2 ^ (8 * n) := by
  rw [hostTo, if_pos rfl, zeroExtendLow_toNat (by omega)]

/-- To the byte order the host does not have: the low bytes reversed (00_scope.md R11). -/
theorem hostTo_other_reversed {host target : Endian} (h : n ≤ 8) (hne : host ≠ target) (x : Word) :
    Reversed n x (hostTo host target n x) := by
  rw [hostTo, if_neg hne]
  exact bswap_reversed h x

/-- A conversion of `n` bytes between the host's byte order and `target` completes (42_byteswap.md R202): on a host of
that order with the low bytes as they are, on a host of the `other` order with them reversed. -/
theorem conversion_completes {target other : Endian} (hx : s.reg dst = .holds x)
    (hexec : exec i s = unary (hostTo s.params.hostEndian target n) dst s) (hlen : i.length = 1) (hn : n ≤ 8)
    (hne : other ≠ target) :
    ∃ v, Completes i s dst v ∧ (s.params.hostEndian = target → v.toNat = x.toNat % 2 ^ (8 * n)) ∧
      (s.params.hostEndian = other → Reversed n x v) := by
  refine ⟨_, completes_of_unary hx hexec hlen, fun hsame => ?_, fun hother => ?_⟩
  · rw [hsame]
    exact hostTo_same_toNat hn target x
  · rw [hother]
    exact hostTo_other_reversed hn hne x

/-- An unconditional swap of `n` bytes completes with them reversed (42_byteswap.md R202). -/
theorem swap_completes (hx : s.reg dst = .holds x) (hexec : exec i s = unary (bswap n) dst s) (hlen : i.length = 1)
    (hn : n ≤ 8) : ∃ v, Completes i s dst v ∧ Reversed n x v :=
  ⟨bswap n x, completes_of_unary hx hexec hlen, bswap_reversed hn x⟩

end Sys2Proof.Proofs

namespace Sys2Proof.Proofs

open Machine

/-- Settles O34: each of the six forms is `conversion_completes` at its width and target order. -/
theorem endConvertsHostByteOrder : Obligations.EndConvertsHostByteOrder := by
  intro s dst x hx
  have hbig : Endian.big ≠ .little := by decide
  exact ⟨
    conversion_completes (i := .endToLeAlu16 dst) (n := 2) hx rfl rfl (by decide) hbig,
    conversion_completes (i := .endToLeAlu32 dst) (n := 4) hx rfl rfl (by decide) hbig,
    conversion_completes (i := .endToLeAlu64 dst) (n := 8) hx rfl rfl (by decide) hbig,
    conversion_completes (i := .endToBeAlu16 dst) (n := 2) hx rfl rfl (by decide) hbig.symm,
    conversion_completes (i := .endToBeAlu32 dst) (n := 4) hx rfl rfl (by decide) hbig.symm,
    conversion_completes (i := .endToBeAlu64 dst) (n := 8) hx rfl rfl (by decide) hbig.symm⟩

/-- Settles O35: each of the three forms is `swap_completes` at its width; no host byte order enters. -/
theorem endAlu64ReversesBytes : Obligations.EndAlu64ReversesBytes := by
  intro s dst x hx
  exact ⟨
    swap_completes (i := .endAlu64Swap16 dst) (n := 2) hx rfl rfl (by decide),
    swap_completes (i := .endAlu64Swap32 dst) (n := 4) hx rfl rfl (by decide),
    swap_completes (i := .endAlu64Swap64 dst) (n := 8) hx rfl rfl (by decide)⟩

end Sys2Proof.Proofs
end

section
/-!
PROOFS. What an instruction can do: the shared operation each one is, with its tables, and every state it can answer.
-/
namespace Sys2Proof.Proofs

open Machine

/-! ### The shapes of meaning -/

variable {s t : State} {i : Instr}

/-- The registers a source operand reads (30_encoding.md R91). -/
def operandReads : Operand → List Reg
  | .k _ => []
  | .x src => [src]

/-- What the tables of an instruction say: the registers it reads, the one it names as written, its memory request,
whether it may set the pc, how many slots it fills. -/
structure Profile (i : Instr) (reads : List Reg) (writes : Option Reg) (request : Option MemRequest) (jumps : Bool)
    (slots : Nat) : Prop where
  reads : readsOf i = reads
  writes : i.writesReg = writes
  request : requestOf i = request
  jumps : setsPc i = jumps
  slots : i.length = slots

/-- The shapes of meaning: every instruction is one of the shared operations, with the tables that go with it. -/
inductive HasForm (i : Instr) (s : State) : Prop
  | alu32 {f dst o} (run : exec i s = alu32 f dst o s)
      (profile : Profile i (dst :: operandReads o) (some dst) none false 1)
  | alu64 {f dst o} (run : exec i s = alu64 f dst o s)
      (profile : Profile i (dst :: operandReads o) (some dst) none false 1)
  | move32 {f dst o} (run : exec i s = move32 f dst o s) (profile : Profile i (operandReads o) (some dst) none false 1)
  | move64 {f dst o} (run : exec i s = move64 f dst o s) (profile : Profile i (operandReads o) (some dst) none false 1)
  | unary {f dst} (run : exec i s = unary f dst s) (profile : Profile i [dst] (some dst) none false 1)
  | jump {d} (run : exec i s = jump s d) (profile : Profile i [] none none true 1)
  | condJump64 {c dst o offset} (run : exec i s = condJump64 c dst o offset s)
      (profile : Profile i (dst :: operandReads o) none none true 1)
  | condJump32 {c dst o offset} (run : exec i s = condJump32 c dst o offset s)
      (profile : Profile i (dst :: operandReads o) none none true 1)
  | load {z ext dst src offset} (run : exec i s = loadReg z ext dst src offset s)
      (profile : Profile i [src] (some dst) (some ⟨src, offset, z, .read⟩) false 1)
  | storeImm {z dst offset imm} (run : exec i s = storeImm z dst offset imm s)
      (profile : Profile i [dst] none (some ⟨dst, offset, z, .write⟩) false 1)
  | storeReg {z dst src offset} (run : exec i s = storeReg z dst src offset s)
      (profile : Profile i [dst, src] none (some ⟨dst, offset, z, .write⟩) false 1)
  | atomic {z f dst src offset} (run : exec i s = atomic z f dst src offset s)
      (profile : Profile i [dst, src] none (some ⟨dst, offset, z, .atomic⟩) false 1)
  | atomicFetch {z f dst src offset} (run : exec i s = atomicFetch z f dst src offset s)
      (profile : Profile i [dst, src] (some src) (some ⟨dst, offset, z, .atomic⟩) false 1)
  | atomicCmpxchg {z low dst src offset} (run : exec i s = atomicCmpxchg z low dst src offset s)
      (profile : Profile i [dst, src, .r0] none (some ⟨dst, offset, z, .atomic⟩) false 1)
  | wide {dst v} (run : exec i s = writeWide s dst v) (profile : Profile i [] (some dst) none false 2)
  | resolved {dst kind imm v} (run : exec i s = writeResolved s dst kind imm v)
      (profile : Profile i [] (some dst) none false 2)
  | helper {table id} (which : i = .callHelperKJmp id ∨ i = .callBtfKJmp id) (run : exec i s = callHelper s table id)
      (profile : Profile i [] none none false 1)
  | callLocal {imm} (which : i = .callLocalKJmp imm) (run : exec i s = callLocal s imm.toInt)
      (profile : Profile i [] none none true 1)
  | exit (which : i = .exitKJmp) (run : exec i s = exit s) (profile : Profile i [] none none true 1)
  | packet (run : exec i s = packet i s) (profile : Profile i [] none none false 1)

theorem hasForm (i : Instr) (s : State) : HasForm i s := by
  cases i
  case addKAlu | addXAlu | subKAlu | subXAlu | mulKAlu | mulXAlu | divKAlu | divXAlu | sdivKAlu | sdivXAlu | orKAlu |
      orXAlu | andKAlu | andXAlu | lshKAlu | lshXAlu | rshKAlu | rshXAlu | modKAlu | modXAlu | smodKAlu | smodXAlu |
      xorKAlu | xorXAlu | arshKAlu | arshXAlu =>
    exact .alu32 rfl ⟨rfl, rfl, rfl, rfl, rfl⟩
  case addKAlu64 | addXAlu64 | subKAlu64 | subXAlu64 | mulKAlu64 | mulXAlu64 | divKAlu64 | divXAlu64 | sdivKAlu64 |
      sdivXAlu64 | orKAlu64 | orXAlu64 | andKAlu64 | andXAlu64 | lshKAlu64 | lshXAlu64 | rshKAlu64 | rshXAlu64 |
      modKAlu64 | modXAlu64 | smodKAlu64 | smodXAlu64 | xorKAlu64 | xorXAlu64 | arshKAlu64 | arshXAlu64 =>
    exact .alu64 rfl ⟨rfl, rfl, rfl, rfl, rfl⟩
  case movKAlu =>
    exact .move32 (f := fun b => b) (o := .k _) rfl ⟨rfl, rfl, rfl, rfl, rfl⟩
  case movXAlu =>
    exact .move32 (f := fun b => b) (o := .x _) rfl ⟨rfl, rfl, rfl, rfl, rfl⟩
  case movsx8XAlu | movsx16XAlu =>
    exact .move32 (o := .x _) rfl ⟨rfl, rfl, rfl, rfl, rfl⟩
  case movKAlu64 =>
    exact .move64 (f := fun b => b) (o := .k _) rfl ⟨rfl, rfl, rfl, rfl, rfl⟩
  case movXAlu64 =>
    exact .move64 (f := fun b => b) (o := .x _) rfl ⟨rfl, rfl, rfl, rfl, rfl⟩
  case movsx8XAlu64 | movsx16XAlu64 | movsx32XAlu64 =>
    exact .move64 (o := .x _) rfl ⟨rfl, rfl, rfl, rfl, rfl⟩
  case negKAlu | negKAlu64 | endToLeAlu16 | endToLeAlu32 | endToLeAlu64 | endToBeAlu16 | endToBeAlu32 | endToBeAlu64 |
      endAlu64Swap16 | endAlu64Swap32 | endAlu64Swap64 =>
    exact .unary rfl ⟨rfl, rfl, rfl, rfl, rfl⟩
  case jaKJmp | jaKJmp32 =>
    exact .jump rfl ⟨rfl, rfl, rfl, rfl, rfl⟩
  case jeqKJmp | jeqXJmp | jgtKJmp | jgtXJmp | jgeKJmp | jgeXJmp | jsetKJmp | jsetXJmp | jneKJmp | jneXJmp | jsgtKJmp |
      jsgtXJmp | jsgeKJmp | jsgeXJmp | jltKJmp | jltXJmp | jleKJmp | jleXJmp | jsltKJmp | jsltXJmp | jsleKJmp |
      jsleXJmp =>
    exact .condJump64 rfl ⟨rfl, rfl, rfl, rfl, rfl⟩
  case jeqKJmp32 | jeqXJmp32 | jgtKJmp32 | jgtXJmp32 | jgeKJmp32 | jgeXJmp32 | jsetKJmp32 | jsetXJmp32 | jneKJmp32 |
      jneXJmp32 | jsgtKJmp32 | jsgtXJmp32 | jsgeKJmp32 | jsgeXJmp32 | jltKJmp32 | jltXJmp32 | jleKJmp32 | jleXJmp32 |
      jsltKJmp32 | jsltXJmp32 | jsleKJmp32 | jsleXJmp32 =>
    exact .condJump32 rfl ⟨rfl, rfl, rfl, rfl, rfl⟩
  case memWLdx | memHLdx | memBLdx | memDwLdx | memsxWLdx | memsxHLdx | memsxBLdx =>
    exact .load rfl ⟨rfl, rfl, rfl, rfl, rfl⟩
  case memWSt | memHSt | memBSt | memDwSt =>
    exact .storeImm rfl ⟨rfl, rfl, rfl, rfl, rfl⟩
  case memWStx | memHStx | memBStx | memDwStx =>
    exact .storeReg rfl ⟨rfl, rfl, rfl, rfl, rfl⟩
  case atomicWStxAdd | atomicDwStxAdd | atomicWStxOr | atomicDwStxOr | atomicWStxAnd | atomicDwStxAnd | atomicWStxXor |
      atomicDwStxXor =>
    exact .atomic rfl ⟨rfl, rfl, rfl, rfl, rfl⟩
  case atomicWStxAddFetch | atomicDwStxAddFetch | atomicWStxOrFetch | atomicDwStxOrFetch | atomicWStxAndFetch |
      atomicDwStxAndFetch | atomicWStxXorFetch | atomicDwStxXorFetch | atomicWStxXchg | atomicDwStxXchg =>
    exact .atomicFetch rfl ⟨rfl, rfl, rfl, rfl, rfl⟩
  case atomicWStxCmpxchg | atomicDwStxCmpxchg =>
    exact .atomicCmpxchg rfl ⟨rfl, rfl, rfl, rfl, rfl⟩
  case immDwLd0 =>
    exact .wide rfl ⟨rfl, rfl, rfl, rfl, rfl⟩
  case immDwLd1 | immDwLd2 | immDwLd3 | immDwLd4 | immDwLd5 | immDwLd6 =>
    exact .resolved rfl ⟨rfl, rfl, rfl, rfl, rfl⟩
  case callHelperKJmp =>
    exact .helper (.inl rfl) rfl ⟨rfl, rfl, rfl, rfl, rfl⟩
  case callBtfKJmp =>
    exact .helper (.inr rfl) rfl ⟨rfl, rfl, rfl, rfl, rfl⟩
  case callLocalKJmp =>
    exact .callLocal rfl rfl ⟨rfl, rfl, rfl, rfl, rfl⟩
  case exitKJmp =>
    exact .exit rfl rfl ⟨rfl, rfl, rfl, rfl, rfl⟩
  case absWLd | absHLd | absBLd | indWLd | indHLd | indBLd =>
    exact .packet rfl ⟨rfl, rfl, rfl, rfl, rfl⟩

/-- The instructions that fill two slots are those of the wide opcode (30_encoding.md R80). -/
theorem length_eq_of_opcode (i : Instr) : i.length = if i.fields.opcode = 0x18 then 2 else 1 := by
  cases i <;> rfl

/-! ### What a completed instruction can do -/

/-- Every state an instruction can answer, with the guards it has passed. -/
inductive Effect (i : Instr) (s : State) : State → Prop
  /-- It writes the register it names, or R0 (CMPXCHG without a match), and goes on. -/
  | wrote {r v n} (named : i.writesReg = some r ∨ r = .r0) (onward : setsPc i = false) (slots : i.length = n) :
      Effect i s ((s.setReg r v).advance n)
  /-- It writes memory at the address of its request and goes on. -/
  | stored {b offset z kind base v n}
      (request : requestOf i = some ⟨b, offset, z, kind⟩) (held : s.reg b = .holds base)
      (admitted : s.params.accessOk (effectiveAddr base offset) z kind = true) (changes : kind ≠ .read)
      (onward : setsPc i = false) (slots : i.length = n) :
      Effect i s ((s.store (effectiveAddr base offset) z v).advance n)
  /-- It writes memory, and the register it names or R0, and goes on. -/
  | exchanged {b offset z kind base v r old n} (named : i.writesReg = some r ∨ r = .r0)
      (request : requestOf i = some ⟨b, offset, z, kind⟩) (held : s.reg b = .holds base)
      (admitted : s.params.accessOk (effectiveAddr base offset) z kind = true) (changes : kind ≠ .read)
      (onward : setsPc i = false) (slots : i.length = n) :
      Effect i s (((s.store (effectiveAddr base offset) z v).setReg r old).advance n)
  /-- It calls a helper. -/
  | helped {id o} (which : i = .callHelperKJmp id ∨ i = .callBtfKJmp id) (basic : i.length = 1)
      (onward : setsPc i = false) : Effect i s (afterHelper s o)
  /-- It jumps to an instruction start. -/
  | jumped {n} (jumps : setsPc i = true) (target : startsAt false s.text n = true) : Effect i s { s with pc := n }
  /-- It is a jump that is not taken. -/
  | passed (jumps : setsPc i = true) (basic : i.length = 1) : Effect i s (s.advance 1)
  /-- It calls a program-local function. -/
  | entered {imm n} (which : i = .callLocalKJmp imm) (target : startsAt false s.text n = true)
      (depth : s.cs.length < s.params.maxCallDepth) : Effect i s (enterFunction s n)
  /-- It returns from one. -/
  | left {f rest} (which : i = .exitKJmp) (stack : s.cs = f :: rest) : Effect i s (leaveFunction s f rest)
  /-- It ends the run. -/
  | ended {r} (which : i = .exitKJmp) (stack : s.cs = []) (result : s.reg .r0 = .holds r) :
      Effect i s { s with status := .exited r }

theorem Effect.of_writeAndAdvance {reads request dst v}
    (p : Profile i reads (some dst) request false 1) (h : writeAndAdvance s dst v = .next t) : Effect i s t := by
  cases h
  exact .wrote (.inl p.writes) p.jumps p.slots

theorem Effect.of_jump {reads writes request slots d} (p : Profile i reads writes request true slots)
    (h : jump s d = .next t) : Effect i s t := by
  obtain ⟨legal, _⟩ := jump_next h
  obtain ⟨_, start, _⟩ := legalTarget_spec legal
  rw [jump, if_pos legal] at h
  cases h
  exact .jumped p.jumps start

theorem Effect.of_jumpIf {reads writes request taken offset} (p : Profile i reads writes request true 1)
    (h : jumpIf s taken offset = .next t) : Effect i s t := by
  cases taken with
  | true => exact .of_jump p h
  | false => cases h; exact .passed p.jumps p.slots

/-- Whatever an instruction answers is one of its effects. -/
theorem exec_effect (h : exec i s = .next t) : Effect i s t := by
  cases hasForm i s with
  | alu32 run p =>
    obtain ⟨a, _, h⟩ := readReg_next (run.symm.trans h)
    obtain ⟨b, h⟩ := readOperand32_next h
    exact .of_writeAndAdvance p h
  | alu64 run p =>
    obtain ⟨a, _, h⟩ := readReg_next (run.symm.trans h)
    obtain ⟨b, h⟩ := readOperand64_next h
    exact .of_writeAndAdvance p h
  | move32 run p =>
    obtain ⟨b, h⟩ := readOperand32_next (run.symm.trans h)
    exact .of_writeAndAdvance p h
  | move64 run p =>
    obtain ⟨b, h⟩ := readOperand64_next (run.symm.trans h)
    exact .of_writeAndAdvance p h
  | unary run p =>
    obtain ⟨a, _, h⟩ := readReg_next (run.symm.trans h)
    exact .of_writeAndAdvance p h
  | jump run p => exact .of_jump p (run.symm.trans h)
  | condJump64 run p =>
    obtain ⟨a, _, h⟩ := readReg_next (run.symm.trans h)
    obtain ⟨b, h⟩ := readOperand64_next h
    exact .of_jumpIf p h
  | condJump32 run p =>
    obtain ⟨a, _, h⟩ := readReg_next (run.symm.trans h)
    obtain ⟨b, h⟩ := readOperand32_next h
    exact .of_jumpIf p h
  | load run p =>
    obtain ⟨base, _, h⟩ := readReg_next (run.symm.trans h)
    obtain ⟨_, h⟩ := memRead_next h
    exact .of_writeAndAdvance p h
  | storeImm run p =>
    obtain ⟨base, held, admitted, rfl⟩ := storeImm_next (run.symm.trans h)
    exact .stored p.request held admitted (by decide) p.jumps p.slots
  | storeReg run p =>
    obtain ⟨base, v, held, _, admitted, rfl⟩ := storeReg_next (run.symm.trans h)
    exact .stored p.request held admitted (by decide) p.jumps p.slots
  | atomic run p =>
    obtain ⟨base, v, held, _, admitted, rfl⟩ := atomic_next (run.symm.trans h)
    exact .stored p.request held admitted (by decide) p.jumps p.slots
  | atomicFetch run p =>
    obtain ⟨base, v, held, _, admitted, rfl⟩ := atomicFetch_next (run.symm.trans h)
    exact .exchanged (.inl p.writes) p.request held admitted (by decide) p.jumps p.slots
  | atomicCmpxchg run p =>
    obtain ⟨base, v, e, held, _, _, admitted, hcase⟩ := atomicCmpxchg_next (run.symm.trans h)
    obtain ⟨_, rfl⟩ | ⟨_, rfl⟩ := hcase
    · exact .exchanged (.inr rfl) p.request held admitted (by decide) p.jumps p.slots
    · exact .wrote (.inr rfl) p.jumps p.slots
  | wide run p =>
    have h := run.symm.trans h
    cases h
    exact .wrote (.inl p.writes) p.jumps p.slots
  | resolved run p =>
    have h := run.symm.trans h
    unfold writeResolved at h
    split at h
    · cases h
      exact .wrote (.inl p.writes) p.jumps p.slots
    · cases h
  | helper which run p =>
    obtain ⟨hp, args, _, rfl⟩ := callHelper_next (run.symm.trans h)
    exact .helped which p.slots p.jumps
  | callLocal which run _ =>
    obtain ⟨legal, depth, rfl⟩ := callLocal_next (run.symm.trans h)
    obtain ⟨_, start, _⟩ := legalTarget_spec legal
    exact .entered which start depth
  | exit which run _ =>
    obtain ⟨stack, r, result, rfl⟩ | ⟨f, rest, stack, rfl⟩ := exit_next (run.symm.trans h)
    · exact .ended which stack result
    · exact .left which stack
  | packet run _ => exact absurd (run.symm.trans h) packet_ne_next

/-- Whatever a step answers is an effect of the instruction it fetched, and the environment has moved on. -/
theorem step_effect (h : step s = .next t) :
    ∃ i u, fetch s = .ok i ∧ Effect i s u ∧ t = { u with env := Config.envNext u.env u.mem } := by
  obtain ⟨_, i, u, hf, hu, ht⟩ := step_next h
  exact ⟨i, u, hf, exec_effect hu, ht⟩

end Sys2Proof.Proofs
end

section
/-!
PROOFS. The decoder and the instruction starts: how many slots an instruction fills, decoding what the encoder gives,
and where the next instruction starts (43_jump.md R222).
-/
namespace Sys2Proof.Proofs

open Machine

/-! ### How many slots a decoded instruction fills -/

/-- Whatever the decoder answers has the property. -/
def Answers (P : Instr → Prop) (k : Decoded) : Prop := ∀ i, k = .ok i → P i

section
variable {P : Instr → Prop}

@[simp] theorem answers_ok {i : Instr} : Answers P (.ok i) ↔ P i :=
  ⟨fun h => h i rfl, fun h j hj => by cases hj; exact h⟩

@[simp] theorem answers_error (e : DecodeError) : Answers P (.error e) :=
  fun _ h => by cases h

@[simp] theorem answers_unusedZero {zero : Bool} {k : Decoded} :
    Answers P (unusedZero zero k) ↔ (zero = true → Answers P k) := by
  cases zero <;> simp [unusedZero]

@[simp] theorem answers_withReg {n : BitVec 4} {k : Reg → Decoded} :
    Answers P (withReg n k) ↔ ∀ r, regOf n = some r → Answers P (k r) := by
  unfold withReg
  split <;> simp [*]

end

/-- The instruction fills `n` slots. -/
def Fills (n : Nat) (i : Instr) : Prop := i.length = n

theorem decodeAlu_fills (a : Fields) : Answers (Fills 1) (decodeAlu a) := by
  unfold decodeAlu signSelect swapForm
  repeat' split
  all_goals simp [noOffset, kForm, xForm, negForm, Fills, Instr.length, Instr.nextImm?]

theorem decodeAlu64_fills (a : Fields) : Answers (Fills 1) (decodeAlu64 a) := by
  unfold decodeAlu64 signSelect swapForm
  repeat' split
  all_goals simp [noOffset, kForm, xForm, negForm, Fills, Instr.length, Instr.nextImm?]

theorem decodeJmp_fills (a : Fields) : Answers (Fills 1) (decodeJmp a) := by
  unfold decodeJmp
  repeat' split
  all_goals simp [jaForm, jumpKForm, jumpXForm, callForm, exitForm, Fills, Instr.length, Instr.nextImm?]

theorem decodeJmp32_fills (a : Fields) : Answers (Fills 1) (decodeJmp32 a) := by
  unfold decodeJmp32
  split
  all_goals simp [ja32Form, jumpKForm, jumpXForm, Fills, Instr.length, Instr.nextImm?]

theorem decodeLdx_fills (a : Fields) : Answers (Fills 1) (decodeLdx a) := by
  unfold decodeLdx
  split
  all_goals simp [memForm, Fills, Instr.length, Instr.nextImm?]

theorem decodeSt_fills (a : Fields) : Answers (Fills 1) (decodeSt a) := by
  unfold decodeSt
  split
  all_goals simp [storeImmForm, Fills, Instr.length, Instr.nextImm?]

theorem decodeStx_fills (a : Fields) : Answers (Fills 1) (decodeStx a) := by
  unfold decodeStx
  repeat' split
  all_goals simp [memForm, atomicForm, Fills, Instr.length, Instr.nextImm?]

theorem decodeWide_fills (a b : Fields) : Answers (Fills 2) (decodeWide a b) := by
  unfold decodeWide
  split
  all_goals simp [wideForm, wideForm1, Fills, Instr.length, Instr.nextImm?]

/-- The wide opcode takes a second slot and gives an instruction of two slots (30_encoding.md R98 (3)); every other
opcode of the class gives one of one slot. -/
theorem decodeLd_ok {a : Fields} {second : Option Fields} {i : Instr} (h : decodeLd a second = .ok i) :
    (a.opcode = 0x18 ∧ second.isSome ∧ i.length = 2) ∨ (a.opcode ≠ 0x18 ∧ i.length = 1) := by
  by_cases hwide : a.opcode = 0x18
  · left
    cases second with
    | none => simp [decodeLd, hwide] at h
    | some b =>
      refine ⟨hwide, rfl, decodeWide_fills a b i ?_⟩
      simpa [decodeLd, hwide] using h
  · right
    refine ⟨hwide, ?_⟩
    have hbasic : Answers (Fills 1) (decodeLd a second) := by
      unfold decodeLd
      split
      · exact absurd (BitVec.eq_of_toNat_eq ‹_›) hwide
      all_goals simp [absForm, indForm, Fills, Instr.length, Instr.nextImm?]
    exact hbasic i h

/-- A decoded instruction fills two slots exactly under the wide opcode, and then there is a second slot. -/
theorem decode_ok {a : Fields} {second : Option Fields} {i : Instr} (h : decode a second = .ok i) :
    (a.opcode = 0x18 ∧ second.isSome ∧ i.length = 2) ∨ (a.opcode ≠ 0x18 ∧ i.length = 1) := by
  by_cases hclass : a.opcode.toNat % 8 = 0
  · exact decodeLd_ok (by simpa only [decode, hclass] using h)
  · refine .inr ⟨fun hwide => hclass (by rw [hwide]; rfl), ?_⟩
    have hbasic : Answers (Fills 1) (decode a second) := by
      unfold decode
      split
      · contradiction
      · exact decodeLdx_fills a
      · exact decodeSt_fills a
      · exact decodeStx_fills a
      · exact decodeAlu_fills a
      · exact decodeJmp_fills a
      · exact decodeJmp32_fills a
      · exact decodeAlu64_fills a
    exact hbasic i h

@[simp] theorem opcode_fields (e : Endian) (x : Slot) : (x.fields e).opcode = x.b0 := by
  cases e <;> rfl

@[simp] theorem b0_slot (e : Endian) (f : Fields) : (f.slot e).b0 = f.opcode := by
  cases e <;> rfl

theorem isWide_iff (x : Slot) : x.isWide = true ↔ x.b0 = 0x18 := by
  simp [Slot.isWide]

/-! ### Instruction starts -/

/-- The slot after an instruction start starts an instruction unless the first one is wide (43_jump.md R222). -/
theorem startsAt_succ {b : Bool} {text : List Slot} {n : Nat} {x : Slot} (h : startsAt b text n = true)
    (hx : text[n]? = some x) (hn : n + 1 < text.length) : startsAt b text (n + 1) = !x.isWide := by
  induction text generalizing b n with
  | nil => simp at hn
  | cons y rest ih =>
    cases n with
    | zero =>
      obtain ⟨z, rest', rfl⟩ := List.exists_cons_of_length_pos (l := rest) (by simpa using hn)
      simp_all [startsAt]
    | succ n => exact ih h (by simpa using hx) (by simpa using hn)

/-- The second slot after a wide instruction start starts an instruction (43_jump.md R222). -/
theorem startsAt_add_two {b : Bool} {text : List Slot} {n : Nat} {x : Slot} (h : startsAt b text n = true)
    (hx : text[n]? = some x) (hw : x.isWide = true) (hn : n + 2 < text.length) : startsAt b text (n + 2) = true := by
  induction text generalizing b n with
  | nil => simp at hn
  | cons y rest ih =>
    cases n with
    | zero =>
      match rest, hn with
      | _ :: _ :: _, _ => simp_all [startsAt]
    | succ n => exact ih h (by simpa using hx) (by simp at hn; omega)

theorem onBoundary_of_startsAt {text : List Slot} {n : Nat} (h : startsAt false text n = true) :
    onBoundary text n = true := by
  simp [onBoundary, h]

theorem onBoundary_iff {text : List Slot} {n : Nat} :
    onBoundary text n = true ↔ startsAt false text n = true ∨ n = text.length := by
  simp [onBoundary]

/-- After a fetched instruction comes another instruction start or the end of the text. -/
theorem fetch_keeps_onBoundary {s : State} {i : Instr} (hpc : onBoundary s.text s.pc = true) (h : fetch s = .ok i) :
    onBoundary s.text (s.pc + i.length) = true := by
  obtain ⟨x, hx, hdec, _⟩ := fetch_ok h
  have hlt : s.pc < s.text.length := (List.getElem?_eq_some_iff.mp hx).1
  have hstart : startsAt false s.text s.pc = true := (onBoundary_iff.mp hpc).resolve_right (by omega)
  rw [onBoundary_iff]
  obtain ⟨hwide, hsecond, hlen⟩ | ⟨hbasic, hlen⟩ := decode_ok hdec
  · have hlt2 : s.pc + 1 < s.text.length := by simpa using hsecond
    rw [hlen]
    by_cases hend : s.pc + 2 = s.text.length
    · exact .inr hend
    · exact .inl (startsAt_add_two hstart hx ((isWide_iff x).mpr (by simpa using hwide)) (by omega))
  · rw [hlen]
    by_cases hend : s.pc + 1 = s.text.length
    · exact .inr hend
    · refine .inl ((startsAt_succ hstart hx (by omega)).trans ?_)
      simpa [Slot.isWide] using hbasic

/-! ### Decoding an encoded instruction -/

/-- Decoding the fields an instruction is encoded in gives it back (30_encoding.md R98). -/
theorem decode_fields (i : Instr) (next : Option Fields) : decode i.fields (i.secondFields.or next) = .ok i := by
  cases i
  case addKAlu | addXAlu | subKAlu | subXAlu | mulKAlu | mulXAlu | divKAlu | divXAlu | sdivKAlu | sdivXAlu | orKAlu |
      orXAlu | andKAlu | andXAlu | lshKAlu | lshXAlu | rshKAlu | rshXAlu | negKAlu | modKAlu | modXAlu | smodKAlu |
      smodXAlu | xorKAlu | xorXAlu | movKAlu | movXAlu | movsx8XAlu | movsx16XAlu | arshKAlu | arshXAlu |
      endToLeAlu16 | endToLeAlu32 | endToLeAlu64 | endToBeAlu16 | endToBeAlu32 | endToBeAlu64 =>
    simp [Instr.fields, decode, decodeAlu, noOffset, kForm, xForm, signSelect, swapForm, negForm]
  case addKAlu64 | addXAlu64 | subKAlu64 | subXAlu64 | mulKAlu64 | mulXAlu64 | divKAlu64 | divXAlu64 | sdivKAlu64 |
      sdivXAlu64 | orKAlu64 | orXAlu64 | andKAlu64 | andXAlu64 | lshKAlu64 | lshXAlu64 | rshKAlu64 | rshXAlu64 |
      negKAlu64 | modKAlu64 | modXAlu64 | smodKAlu64 | smodXAlu64 | xorKAlu64 | xorXAlu64 | movKAlu64 | movXAlu64 |
      movsx8XAlu64 | movsx16XAlu64 | movsx32XAlu64 | arshKAlu64 | arshXAlu64 | endAlu64Swap16 | endAlu64Swap32 |
      endAlu64Swap64 =>
    simp [Instr.fields, decode, decodeAlu64, noOffset, kForm, xForm, signSelect, swapForm, negForm]
  case jaKJmp | jeqKJmp | jeqXJmp | jgtKJmp | jgtXJmp | jgeKJmp | jgeXJmp | jsetKJmp | jsetXJmp | jneKJmp | jneXJmp |
      jsgtKJmp | jsgtXJmp | jsgeKJmp | jsgeXJmp | jltKJmp | jltXJmp | jleKJmp | jleXJmp | jsltKJmp | jsltXJmp |
      jsleKJmp | jsleXJmp | callHelperKJmp | callLocalKJmp | callBtfKJmp | exitKJmp =>
    simp [Instr.fields, decode, decodeJmp, jumpKForm, jumpXForm, callForm, exitForm, jaForm]
  case jaKJmp32 | jeqKJmp32 | jeqXJmp32 | jgtKJmp32 | jgtXJmp32 | jgeKJmp32 | jgeXJmp32 | jsetKJmp32 | jsetXJmp32 |
      jneKJmp32 | jneXJmp32 | jsgtKJmp32 | jsgtXJmp32 | jsgeKJmp32 | jsgeXJmp32 | jltKJmp32 | jltXJmp32 | jleKJmp32 |
      jleXJmp32 | jsltKJmp32 | jsltXJmp32 | jsleKJmp32 | jsleXJmp32 =>
    simp [Instr.fields, decode, decodeJmp32, jumpKForm, jumpXForm, ja32Form]
  case memWLdx | memHLdx | memBLdx | memDwLdx | memsxWLdx | memsxHLdx | memsxBLdx =>
    simp [Instr.fields, decode, decodeLdx, memForm]
  case memWSt | memHSt | memBSt | memDwSt =>
    simp [Instr.fields, decode, decodeSt, storeImmForm]
  case memWStx | memHStx | memBStx | memDwStx | atomicWStxAdd | atomicDwStxAdd | atomicWStxAddFetch |
      atomicDwStxAddFetch | atomicWStxOr | atomicDwStxOr | atomicWStxOrFetch | atomicDwStxOrFetch | atomicWStxAnd |
      atomicDwStxAnd | atomicWStxAndFetch | atomicDwStxAndFetch | atomicWStxXor | atomicDwStxXor |
      atomicWStxXorFetch | atomicDwStxXorFetch | atomicWStxXchg | atomicDwStxXchg | atomicWStxCmpxchg |
      atomicDwStxCmpxchg =>
    simp [Instr.fields, decode, decodeStx, memForm, atomicForm]
  case immDwLd0 | immDwLd1 | immDwLd2 | immDwLd3 | immDwLd4 | immDwLd5 | immDwLd6 =>
    simp [Instr.fields, decode, decodeLd, decodeWide, wideForm, wideForm1, Instr.secondFields, Instr.nextImm?,
      Fields.ofOpcode]
  case absWLd | absHLd | absBLd | indWLd | indHLd | indBLd =>
    simp [Instr.fields, decode, decodeLd, absForm, indForm]

theorem decodeSlots_encodeSlots (e : Endian) (i : Instr) (next : Option Slot) :
    decodeSlots e (encodeSlots e i).1 ((encodeSlots e i).2.or next) = .ok i := by
  have hsecond : ((encodeSlots e i).2.or next).map (Slot.fields e) = i.secondFields.or (next.map (Slot.fields e)) := by
    cases h : i.secondFields <;> simp [encodeSlots, h]
  simp only [decodeSlots, hsecond]
  simpa [encodeSlots] using decode_fields i (next.map (Slot.fields e))

/-- There is a second slot exactly under the wide opcode (30_encoding.md R80). -/
theorem secondFields_isSome_iff (i : Instr) : i.secondFields.isSome = true ↔ i.fields.opcode = 0x18 := by
  have hlen := length_eq_of_opcode i
  cases hn : i.nextImm? <;> simp_all [Instr.length, Instr.secondFields]

end Sys2Proof.Proofs
end

section
/-!
PROOFS. The state of the machine (10_state.md): what every step keeps, which steps stop, the launch, and the statements
of the family.
-/
namespace Sys2Proof.Proofs

open Machine

/-! ### Calls and returns -/

section
variable {s t : State} {i : Instr}

/-- A program-local call pushes a frame that returns to the next slot, with registers saved under `fresh_frame` alone
(43_jump.md R224, R249). -/
theorem enterFunction_cs (s : State) (n : Nat) :
    (enterFunction s n).cs =
      { ret := s.pc + 1
        saved := if s.params.framePolicy = .freshFrame then some s.regs.toSave else none } :: s.cs := by
  cases hp : s.params.framePolicy <;> simp [enterFunction, hp]

theorem enterFunction_r10 (n : Nat) (hp : s.params.framePolicy = .freshFrame) :
    (enterFunction s n).reg .r10 = s.params.calleeFpAt (s.cs.length + 1) := by
  simp [State.reg, enterFunction, hp]

theorem frameMemory_wf (fp : RegVal) (hm : Memory.wf s.mem = true) : Memory.wf (frameMemory s fp) = true := by
  unfold frameMemory
  split
  · split
    · exact Memory.wf_putAll _ hm
    · exact hm
  · exact hm

theorem enterFunction_mem_wf (n : Nat) (hm : Memory.wf s.mem = true) : Memory.wf (enterFunction s n).mem = true := by
  cases hp : s.params.framePolicy with
  | freshFrame => simpa [enterFunction, hp] using frameMemory_wf _ hm
  | none => simpa [enterFunction, hp] using hm

/-- A return restores R10 as the frame saved it (43_jump.md R224). -/
theorem leaveFunction_r10 {f : Frame} {sv : SavedRegs} (rest : List Frame) (hf : f.saved = some sv) :
    (leaveFunction s f rest).reg .r10 = sv.fp := by
  simp [State.reg, leaveFunction, hf]

/-! ### What an effect keeps -/

theorem Effect.params_eq (h : Effect i s t) : t.params = s.params := by
  cases h <;> simp

theorem Effect.text_eq (h : Effect i s t) : t.text = s.text := by
  cases h <;> simp

/-- Every effect keeps the canonical form of memory (log entry 4). -/
theorem Effect.keeps_mem_wf (h : Effect i s t) (hm : Memory.wf s.mem = true) : Memory.wf t.mem = true := by
  cases h with
  | stored | exchanged => exact Memory.wf_putBytes _ _ hm
  | helped => exact Memory.wf_putAll _ hm
  | entered => exact enterFunction_mem_wf _ hm
  | left => rwa [leaveFunction_mem]
  | wrote | jumped | passed | ended => exact hm

/-- An instruction leaves the call stack alone, and R10 unless it names it, or it is a program-local call or a return
(43_jump.md R249, R251). -/
theorem Effect.stack_cases (h : Effect i s t) :
    (t.cs = s.cs ∧ t.deepest = s.deepest ∧ (i.writesReg ≠ some .r10 → t.reg .r10 = s.reg .r10)) ∨
      (∃ imm n, i = .callLocalKJmp imm ∧ s.cs.length < s.params.maxCallDepth ∧ t = enterFunction s n) ∨
      (∃ f rest, i = .exitKJmp ∧ s.cs = f :: rest ∧ t = leaveFunction s f rest) := by
  have named_ne : ∀ {r : Reg}, i.writesReg = some r ∨ r = .r0 → i.writesReg ≠ some .r10 → Reg.r10 ≠ r := by
    rintro r (named | rfl) hw
    · rintro rfl
      exact hw named
    · decide
  cases h with
  | wrote named =>
    exact .inl ⟨rfl, rfl, fun hw => by simp [State.reg_setReg_other _ _ (named_ne named hw)]⟩
  | exchanged named =>
    exact .inl ⟨rfl, rfl, fun hw => by simp [State.reg_setReg_other _ _ (named_ne named hw)]⟩
  | stored | jumped | passed | helped | ended => exact .inl ⟨rfl, rfl, fun _ => rfl⟩
  | entered which _ depth => exact .inr (.inl ⟨_, _, which, depth, rfl⟩)
  | left which stack => exact .inr (.inr ⟨_, _, which, stack, rfl⟩)

/-- An instruction that is no jump goes on to the next one (10_state.md R25). -/
theorem Effect.pc_of_onward (h : Effect i s t) (onward : setsPc i = false) : t.pc = s.pc + i.length := by
  cases h with
  | wrote _ _ slots | stored _ _ _ _ _ slots | exchanged _ _ _ _ _ _ slots => rw [slots]; rfl
  | helped _ basic => rw [basic]; rfl
  | jumped jumps | passed jumps => rw [onward] at jumps; cases jumps
  | entered which | left which | ended which => rw [which] at onward; cases onward

/-- Where an instruction can leave the pc: at the next instruction, at an instruction start, where a frame returns to,
or, at the end of the run, where it was. -/
theorem Effect.pc_cases (h : Effect i s t) :
    t.pc = s.pc + i.length ∨ startsAt false s.text t.pc = true ∨ (∃ f ∈ s.cs, t.pc = f.ret) ∨ t.pc = s.pc := by
  cases h with
  | wrote _ _ slots | stored _ _ _ _ _ slots | exchanged _ _ _ _ _ _ slots => rw [slots]; exact .inl rfl
  | helped _ basic => rw [basic]; exact .inl rfl
  | passed _ basic => rw [basic]; exact .inl rfl
  | jumped _ target => exact .inr (.inl target)
  | entered _ target => exact .inr (.inl (by simpa using target))
  | @left f rest _ stack => exact .inr (.inr (.inl ⟨f, by simp [stack], by simp⟩))
  | ended => exact .inr (.inr (.inr rfl))

/-! ### The invariants -/

theorem Effect.keeps_onBoundary (h : Effect i s t) (hf : fetch s = .ok i) (hi : Inv s) :
    onBoundary t.text t.pc = true := by
  rw [h.text_eq]
  obtain hnext | hstart | ⟨f, hmem, hret⟩ | hsame := h.pc_cases
  · rw [hnext]; exact fetch_keeps_onBoundary hi.pc hf
  · exact onBoundary_of_startsAt hstart
  · rw [hret]; exact hi.returns f hmem
  · rw [hsame]; exact hi.pc

/-- What `Inv` asks of one frame. -/
def FrameOk (s : State) (f : Frame) : Prop :=
  f.saved.isSome = decide (s.params.framePolicy = .freshFrame) ∧ onBoundary s.text f.ret = true

theorem Effect.keeps_frames (h : Effect i s t) (hf : fetch s = .ok i) (hi : Inv s) :
    t.cs.length ≤ t.params.maxCallDepth ∧ t.cs.length ≤ t.deepest ∧ ∀ f ∈ t.cs, FrameOk s f := by
  have hold : ∀ f ∈ s.cs, FrameOk s f := fun f hm => ⟨hi.frames f hm, hi.returns f hm⟩
  have hdepth := hi.depth
  have hdeepest := hi.deepest
  obtain ⟨hcs, hd, _⟩ | ⟨imm, n, rfl, hlt, rfl⟩ | ⟨f, rest, rfl, hcs, rfl⟩ := h.stack_cases
  · rw [hcs, hd, h.params_eq]
    exact ⟨hdepth, hdeepest, hold⟩
  · have hnew : FrameOk s ⟨s.pc + 1, if s.params.framePolicy = .freshFrame then some s.regs.toSave else none⟩ := by
      refine ⟨?_, fetch_keeps_onBoundary hi.pc hf⟩
      split <;> simp [*]
    rw [enterFunction_cs, enterFunction_params, enterFunction_deepest]
    refine ⟨hlt, by simp, ?_⟩
    exact List.forall_mem_cons.mpr ⟨hnew, hold⟩
  · rw [hcs] at hdepth hdeepest hold
    simp only [leaveFunction_cs, leaveFunction_params, leaveFunction_deepest]
    simp only [List.length_cons] at hdepth hdeepest
    exact ⟨by omega, by omega, (List.forall_mem_cons.mp hold).2⟩

theorem Effect.keeps_inv (h : Effect i s t) (hf : fetch s = .ok i) (hi : Inv s) : Inv t := by
  obtain ⟨hdepth, hdeepest, hframes⟩ := h.keeps_frames hf hi
  exact {
    memory := h.keeps_mem_wf hi.memory
    depth := hdepth
    deepest := hdeepest
    frames := fun f hm => h.params_eq ▸ (hframes f hm).1
    pc := h.keeps_onBoundary hf hi
    returns := fun f hm => h.text_eq ▸ (hframes f hm).2 }

/-- The environment moving on keeps the invariant. -/
theorem inv_env (env : Nat) (h : Inv s) : Inv { s with env := env } :=
  ⟨h.memory, h.depth, h.deepest, h.frames, h.pc, h.returns⟩

theorem fetch_ok_writesReg_ne (hr : s.params.r10Readonly = true) (hf : fetch s = .ok i) : i.writesReg ≠ some .r10 := by
  obtain ⟨_, _, _, hwf⟩ := fetch_ok hf
  intro hw
  simp [Instr.wellFormed, Instr.writesReadOnly, hr, hw] at hwf

theorem Effect.keeps_frameInv (h : Effect i s t) (hf : fetch s = .ok i) (hi : FrameInv s) : FrameInv t := by
  obtain ⟨hro, hpolicy, hr10, hsaved⟩ := hi
  obtain ⟨hcs, _, hkeep⟩ | ⟨imm, n, rfl, _, rfl⟩ | ⟨f, rest, rfl, hcs, rfl⟩ := h.stack_cases
  · have hr := (hkeep (fetch_ok_writesReg_ne hro hf)).trans hr10
    refine ⟨?_, ?_, ?_, ?_⟩ <;> rw [h.params_eq]
    · exact hro
    · exact hpolicy
    · rw [hcs]; exact hr
    · rw [hcs]; exact hsaved
  · refine ⟨?_, ?_, ?_, ?_⟩ <;> rw [enterFunction_params]
    · exact hro
    · exact hpolicy
    · rw [enterFunction_cs, enterFunction_r10 n hpolicy]; rfl
    · rw [enterFunction_cs, if_pos hpolicy]
      exact ⟨⟨_, rfl, hr10⟩, hsaved⟩
  · rw [hcs] at hsaved
    obtain ⟨⟨sv, hsv, hfp⟩, hrest⟩ := hsaved
    refine ⟨?_, ?_, ?_, ?_⟩ <;> rw [leaveFunction_params]
    · exact hro
    · exact hpolicy
    · rw [leaveFunction_cs, leaveFunction_r10 rest hsv, hfp]
    · rw [leaveFunction_cs]; exact hrest

theorem frameInv_env (env : Nat) (h : FrameInv s) : FrameInv { s with env := env } :=
  ⟨h.readonly, h.policy, h.r10, h.saved⟩

end

/-! ### Instructions the fetch refuses -/

section
variable {s : State} {i : Instr}

/-- `IllegalInstruction` of the slots an instruction is encoded in records its canonical words (60_exceptions.md
R382). -/
theorem illegal_encodeSlots (next : Option Slot)
    (hnext : ∀ x, (encodeSlots s.params.hostEndian i).2 = some x → next = some x) :
    fetch.illegal s s.pc (encodeSlots s.params.hostEndian i).1 next =
      .illegalInstruction s.pc (encode i).1 (encode i).2 := by
  have hwide := secondFields_isSome_iff i
  cases hs : i.secondFields with
  | none => simp_all [fetch.illegal, encodeSlots, encode, Slot.isWide]
  | some f =>
    have hx := hnext (f.slot s.params.hostEndian) (by simp [encodeSlots, hs])
    simp_all [fetch.illegal, encodeSlots, encode, Slot.isWide]

/-- A slot that decodes to an instruction the machine does not execute is an illegal instruction (30_encoding.md
R98 (5)). -/
theorem fetch_of_not_wellFormed {x : Slot} (hx : s.text[s.pc]? = some x)
    (hd : decodeSlots s.params.hostEndian x s.text[s.pc + 1]? = .ok i) (hw : i.wellFormed s.params = false) :
    fetch s = .error (fetch.illegal s s.pc x s.text[s.pc + 1]?) := by
  simp [fetch, hx, hd, hw]

theorem step_of_fetch_error {f : Fault} (hr : s.status = .running) (hf : fetch s = .error f) :
    step s = .fault f := by
  simp [step, hr, hf, raise]

/-- A group is not supported if neither it nor the group that includes it is listed (00_scope.md R2). -/
theorem supports_eq_false {p : Params} {g : ConformanceGroup} (hg : g ∉ p.groups)
    (h32 : g = .base32 → .base64 ∉ p.groups) (ha : g = .atomic32 → .atomic64 ∉ p.groups)
    (hd : g = .divmul32 → .divmul64 ∉ p.groups) : p.supports g = false := by
  cases g <;> simp_all [Params.supports, ConformanceGroup.within]

/-! ### Machines that do not run -/

theorem step_ne_next_of_not_running {t : State} (h : s.status ≠ .running) : step s ≠ .next t :=
  fun hs => h (step_next hs).1

theorem runStep_of_not_running (h : s.status ≠ .running) : runStep s = s := by
  cases hs : s.status <;> simp_all [runStep]

theorem runStep_of_running (h : s.status = .running) : runStep s = s.settle (step s) := by
  simp [runStep, h]

/-- A machine that is not running stays as it is however long it runs (10_state.md R34). -/
theorem runFor_of_not_running (n : Nat) (h : s.status ≠ .running) : runFor n s = s := by
  induction n with
  | zero => rfl
  | succ n ih => rw [runFor, runStep_of_not_running h, ih]

/-- A step after which the machine does not run is its last. -/
theorem runFor_succ_of_settled {t : State} (n : Nat) (hr : s.status = .running) (hs : s.settle (step s) = t)
    (ht : t.status ≠ .running) : runFor (n + 1) s = t := by
  rw [runFor, runStep_of_running hr, hs, runFor_of_not_running n ht]

/-! ### Registers that hold no value -/

/-- The answer is the fault of the first of these registers that holds no value, if there is one (60_exceptions.md
R392). -/
def FaultsInOrder (s : State) (rs : List Reg) (o : Res) : Prop :=
  ∀ r before after, rs = before ++ r :: after → (∀ q ∈ before, ∃ v, s.reg q = .holds v) → s.reg r = .unwritten →
    o = .fault (.unwrittenRegister s.pc r)

theorem faultsInOrder_nil (o : Res) : FaultsInOrder s [] o := by
  intro r before after h
  simp at h

/-- Reading a register first. -/
theorem faultsInOrder_readReg {r : Reg} {rs : List Reg} {k : Word → Res} (h : ∀ v, FaultsInOrder s rs (k v)) :
    FaultsInOrder s (r :: rs) (readReg s r k) := by
  intro q before after hsplit hheld hq
  cases before with
  | nil =>
    obtain ⟨rfl, rfl⟩ := List.cons.inj hsplit
    exact readReg_unwritten hq k
  | cons p before =>
    obtain ⟨rfl, hrest⟩ := List.cons.inj hsplit
    obtain ⟨⟨v, hv⟩, hbefore⟩ := List.forall_mem_cons.mp hheld
    rw [readReg_holds hv]
    exact h v q before after hrest hbefore hq

theorem faultsInOrder_readOperand32 {o : Operand} {k : BitVec 32 → Res} :
    FaultsInOrder s (operandReads o) (readOperand32 s o k) := by
  cases o with
  | k imm => exact faultsInOrder_nil _
  | x src => exact faultsInOrder_readReg fun _ => faultsInOrder_nil _

theorem faultsInOrder_readOperand64 {o : Operand} {k : Word → Res} :
    FaultsInOrder s (operandReads o) (readOperand64 s o k) := by
  cases o with
  | k imm => exact faultsInOrder_nil _
  | x src => exact faultsInOrder_readReg fun _ => faultsInOrder_nil _

/-- Every instruction reads the registers of `readsOf` in their order, before anything else can fault. -/
theorem exec_faultsInOrder (i : Instr) (s : State) : FaultsInOrder s (readsOf i) (exec i s) := by
  cases hasForm i s with
  | alu32 run p | condJump32 run p =>
    rw [run, p.reads]
    exact faultsInOrder_readReg fun _ => faultsInOrder_readOperand32
  | alu64 run p | condJump64 run p =>
    rw [run, p.reads]
    exact faultsInOrder_readReg fun _ => faultsInOrder_readOperand64
  | move32 run p =>
    rw [run, p.reads]
    exact faultsInOrder_readOperand32
  | move64 run p =>
    rw [run, p.reads]
    exact faultsInOrder_readOperand64
  | unary run p | load run p | storeImm run p =>
    rw [run, p.reads]
    exact faultsInOrder_readReg fun _ => faultsInOrder_nil _
  | storeReg run p | atomic run p | atomicFetch run p =>
    rw [run, p.reads]
    exact faultsInOrder_readReg fun _ => faultsInOrder_readReg fun _ => faultsInOrder_nil _
  | atomicCmpxchg run p =>
    rw [run, p.reads]
    exact faultsInOrder_readReg fun _ => faultsInOrder_readReg fun _ => faultsInOrder_readReg fun _ =>
      faultsInOrder_nil _
  | jump _ p | wide _ p | resolved _ p | helper _ _ p | callLocal _ _ p | exit _ _ p | packet _ p =>
    rw [p.reads]
    exact faultsInOrder_nil _

end

/-! ### The launch -/

section
variable {p : Params} {text : List Slot}

/-- No access of kind write or atomic that touches the address is admitted (20_memory.md R66; log entry 19). -/
theorem mayBeWritten_eq_false_iff {a : Word} : mayBeWritten p a = false ↔
    ∀ n ∈ [1, 2, 4, 8], ∀ k < n, k ≤ a.toNat →
      p.admits (a - BitVec.ofNat 64 k) n .write = false ∧ p.admits (a - BitVec.ofNat 64 k) n .atomic = false := by
  simp only [mayBeWritten, List.any_eq_false, List.mem_range, Bool.and_eq_true, Bool.or_eq_true, decide_eq_true_eq,
    not_and, not_or, Bool.not_eq_true, List.any_eq_true, not_exists]

theorem codeWritable_eq_false_iff : codeWritable p = false ↔ ∀ c ∈ p.codeAddr, mayBeWritten p c.2 = false := by
  simp [codeWritable]

theorem helpersReturn_iff : helpersReturn p = true ↔
    (∀ h ∈ p.helpersStatic, h.2.returnsToNext = true) ∧ ∀ h ∈ p.helpersBtf, h.2.returnsToNext = true := by
  simp only [helpersReturn, Bool.and_eq_true, List.all_eq_true]

/-- A launch is accepted if its four checks pass (60_exceptions.md R391 (b)). -/
theorem launchRefusal_eq_none_iff : launchRefusal text p = none ↔
    .base32 ∈ p.groups ∧ legalTarget text p.entryPc = true ∧ codeWritable p = false ∧ helpersReturn p = true := by
  unfold launchRefusal
  split_ifs <;> simp_all

theorem launch_status_of_refused {r : Refusal} (m : Memory) (h : launchRefusal text p = some r) :
    (launch text p m).status = .refused r := by
  simp only [launch, h]

theorem launch_running_iff (m : Memory) : (launch text p m).status = .running ↔ launchRefusal text p = none := by
  cases h : launchRefusal text p with
  | none => simp [launch_status_of_accepted m h]
  | some r => simp [launch_status_of_refused m h]

/-- Any program can be launched from its first slot under the recommended parameters. -/
theorem launchRefusal_recommended (h : text ≠ []) : launchRefusal text Params.recommended = none := by
  obtain ⟨x, rest, rfl⟩ := List.exists_cons_of_ne_nil h
  exact launchRefusal_eq_none_iff.mpr ⟨by decide, rfl, by decide, by decide⟩

end

end Sys2Proof.Proofs

namespace Sys2Proof.Proofs

open Machine

/-! ### The statements -/

/-- Settles O13: every effect of a fetched instruction keeps the invariant. -/
theorem stepKeepsInv : Obligations.StepKeepsInv := by
  intro s t hi h
  obtain ⟨i, u, hf, he, rfl⟩ := step_effect h
  exact inv_env _ (he.keeps_inv hf hi)

/-- Settles O14: a call sets R10 to the frame pointer of the new depth and saves the old one, a return restores it, and
no other fetched instruction names R10. -/
theorem stepKeepsFrameInv : Obligations.StepKeepsFrameInv := by
  intro s t hi h
  obtain ⟨i, u, hf, he, rfl⟩ := step_effect h
  exact frameInv_env _ (he.keeps_frameInv hf hi)

/-- Settles O17: the fetch refuses an instruction that names R10, so an effect that leaves the call stack alone leaves
R10 alone. -/
theorem r10ChangesOnlyByCallAndExit : Obligations.R10ChangesOnlyByCallAndExit := by
  intro s t hro h hne
  obtain ⟨i, u, hf, he, rfl⟩ := step_effect h
  obtain ⟨_, _, hkeep⟩ | ⟨imm, _, hcall, _⟩ | ⟨_, _, hexit, _⟩ := he.stack_cases
  · exact absurd (hkeep (fetch_ok_writesReg_ne hro hf)) hne
  · exact ⟨i, hf, .inl ⟨imm, hcall⟩⟩
  · exact ⟨i, hf, .inr hexit⟩

/-- Settles O18: the three cases of `Effect.stack_cases`. -/
theorem callStackChangesOnlyByCallAndExit : Obligations.CallStackChangesOnlyByCallAndExit := by
  intro s t h
  obtain ⟨i, u, hf, he, rfl⟩ := step_effect h
  obtain ⟨hcs, _⟩ | ⟨imm, n, hcall, _, rfl⟩ | ⟨f, rest, hexit, hcs, rfl⟩ := he.stack_cases
  · exact .inl hcs
  · exact .inr ⟨i, hf, .inl ⟨imm, _, hcall, enterFunction_cs s n, rfl⟩⟩
  · exact .inr ⟨i, hf, .inr ⟨hexit, f, by simpa using hcs⟩⟩

/-- Settles O10: the slots decode to the instruction, which is not one the machine executes. -/
theorem readOnlyR10AndUnsupportedGroups : Obligations.ReadOnlyR10AndUnsupportedGroups := by
  intro s i hr hfirst hsecond hbad
  have hdec : decodeSlots s.params.hostEndian (encodeSlots s.params.hostEndian i).1 s.text[s.pc + 1]? = .ok i := by
    have h := decodeSlots_encodeSlots s.params.hostEndian i s.text[s.pc + 1]?
    cases hs : (encodeSlots s.params.hostEndian i).2 with
    | none => simpa [hs] using h
    | some x => simpa [hs, hsecond x hs] using h
  have hw : i.wellFormed s.params = false := by
    rcases hbad with ⟨hro, hwrites⟩ | ⟨hg, h32, ha, hd⟩
    · simp [Instr.wellFormed, Instr.writesReadOnly, hro, hwrites]
    · simp [Instr.wellFormed, supports_eq_false hg h32 ha hd]
  rw [step_of_fetch_error hr (fetch_of_not_wellFormed hfirst hdec hw), illegal_encodeSlots _ hsecond]

/-- Settles O11: by induction on the number of steps a machine that is not running stays as it is, and a fault or a
refusal makes it such a machine. -/
theorem onlyRunningMachineSteps : Obligations.OnlyRunningMachineSteps := by
  refine ⟨fun n s h => ⟨runFor_of_not_running n h, fun t => step_ne_next_of_not_running h⟩, ?_, ?_⟩
  · intro s f hr hs n
    exact runFor_succ_of_settled n hr (by rw [hs]; rfl) (by simp)
  · intro s r hr hs n
    exact runFor_succ_of_settled n hr (by rw [hs]; rfl) (by simp)

/-- Settles O20: an effect of an instruction that is no jump goes on by its length, two slots under the wide opcode. -/
theorem onlyJumpsSetThePc : Obligations.OnlyJumpsSetThePc := by
  intro i s t onward h
  rw [(exec_effect h).pc_of_onward onward, length_eq_of_opcode]

/-- Settles O55: the registers are read in the order of `readsOf`, by `exec_faultsInOrder`. -/
theorem unwrittenRegisterFaults : Obligations.UnwrittenRegisterFaults := by
  intro i s r before after hreads hheld hr
  exact exec_faultsInOrder i s r before after hreads hheld hr

/-- Settles O60: the four checks of `launchRefusal` are the four conditions, and a program passes them under the
recommended parameters. -/
theorem launchChecksAndValues : Obligations.LaunchChecksAndValues := by
  intro text p mem
  refine ⟨⟨rfl, rfl, rfl, rfl, rfl, rfl⟩, ?_, ?_, ?_⟩
  · simp only [launch_running_iff, launchRefusal_eq_none_iff, codeWritable_eq_false_iff, mayBeWritten_eq_false_iff,
      helpersReturn_iff]
  · intro h
    obtain ⟨r, hr⟩ := Option.ne_none_iff_exists'.mp fun hn => h ((launch_running_iff mem).mpr hn)
    exact ⟨r, launch_status_of_refused mem hr⟩
  · intro h
    simp only [launch, launchRefusal_recommended h]
    rfl

/-- Settles O12: the reset state has an empty memory, text and call stack, and R10 at its launch value. -/
theorem resetMeetsInvariants : Obligations.ResetMeetsInvariants := by
  refine ⟨⟨reset_memory_wf, Nat.zero_le _, Nat.zero_le _, ?_, rfl, ?_⟩, ⟨rfl, rfl, rfl, trivial⟩⟩
  · intro f hf
    cases hf
  · intro f hf
    cases hf

end Sys2Proof.Proofs
end

section
/-!
PROOFS. Data memory (20_memory.md): what a step keeps of the text and the parameters, where a stored byte can change,
the access rule, and the loads, stores and atomics (45_load_store.md, 46_atomic.md).
-/
namespace Sys2Proof.Proofs

open Machine

/-! ### Text and parameters -/

section
variable {s t : State} {i : Instr}

/-- The program text and the parameters of `t` are those of `s`. -/
def SameProgram (s t : State) : Prop := t.text = s.text ∧ t.params = s.params

theorem step_keeps_program (h : step s = .next t) : SameProgram s t := by
  obtain ⟨i, u, _, he, rfl⟩ := step_effect h
  exact ⟨he.text_eq, he.params_eq⟩

/-- Recording how a step ended, a fault or a refusal included, keeps the program. -/
theorem settle_keeps_program {o : Res} (h : ∀ t, o = .next t → SameProgram s t) : SameProgram s (s.settle o) := by
  cases o with
  | next t => exact h t rfl
  | fault f => exact ⟨rfl, rfl⟩
  | refused r => exact ⟨rfl, rfl⟩

theorem runStep_keeps_program (s : State) : SameProgram s (runStep s) := by
  by_cases hr : s.status = .running
  · rw [runStep_of_running hr]
    exact settle_keeps_program fun t => step_keeps_program
  · rw [runStep_of_not_running hr]
    exact ⟨rfl, rfl⟩

theorem runFor_keeps_program (n : Nat) (s : State) : SameProgram s (runFor n s) := by
  induction n generalizing s with
  | zero => exact ⟨rfl, rfl⟩
  | succ n ih =>
    obtain ⟨text, params⟩ := runStep_keeps_program s
    obtain ⟨text', params'⟩ := ih (runStep s)
    exact ⟨text'.trans text, params'.trans params⟩

/-! ### Where a stored byte can change -/

/-- A store changes only bytes it stores. -/
theorem store_changes {a b : Word} {z : Size} {v : Word}
    (h : Memory.find (s.store a z v).mem b.toNat ≠ Memory.find s.mem b.toNat) :
    ∃ k < z.bytes, b = a + BitVec.ofNat 64 k := by
  by_contra hout
  push Not at hout
  exact h ((storedAt_store s a z v).othersStored b (by simpa using hout))

/-- A helper changes only bytes the platform lets helpers write (43_jump.md R223 (2)). -/
theorem afterHelper_changes {o : HelperOutcome} {a : Word}
    (h : Memory.find (afterHelper s o).mem a.toNat ≠ Memory.find s.mem a.toNat) :
    ∃ sp ∈ s.params.helperMayWrite, sp.base ≤ a.toNat ∧ a.toNat < sp.base + sp.size := by
  by_contra hout
  refine h (Memory.find_putAll_other _ _ fun w hw he => hout ?_)
  simpa [Span.holds, he] using helperStores_mayWrite hw

/-- A program-local call changes only bytes of a frame that is used again (43_jump.md R251; log entry 12). -/
theorem enterFunction_changes {n : Nat} {a : Word}
    (h : Memory.find (enterFunction s n).mem a.toNat ≠ Memory.find s.mem a.toNat) :
    s.params.framePolicy = .freshFrame ∧ s.cs.length < s.deepest ∧
      ∃ fp k, (enterFunction s n).reg .r10 = .holds fp ∧ k < s.params.stackSize ∧
        a = fp - BitVec.ofNat 64 (k + 1) := by
  obtain ⟨reused, untouched⟩ := enterFunction_memory s n
  have hframe : ¬(s.params.framePolicy = .none ∨ s.deepest ≤ s.cs.length ∨
      s.params.calleeFpAt (s.cs.length + 1) = .unwritten) := fun hno => h ((untouched hno).stored _)
  push Not at hframe
  obtain ⟨hpolicy, hdepth, hknown⟩ := hframe
  have hfresh : s.params.framePolicy = .freshFrame := by
    cases hp : s.params.framePolicy with
    | freshFrame => rfl
    | none => exact absurd hp hpolicy
  cases hfp : s.params.calleeFpAt (s.cs.length + 1) with
  | unwritten => exact absurd hfp hknown
  | holds fp =>
    refine ⟨hfresh, hdepth, fp, ?_⟩
    by_contra hout
    refine h ((reused hfresh hdepth fp hfp).othersStored a fun k hk ha => hout ⟨k, ?_, hk, ha⟩)
    rw [enterFunction_r10 n hfresh, hfp]

end

/-! ### The access rule -/

/-- `MEM_ADMIT` admits an access that a region permits and holds (20_memory.md R56). -/
theorem admits_iff {p : Params} {a : Word} {n : Nat} {kind : AccessKind} : p.admits a n kind = true ↔
    ∃ g ∈ p.memAdmit, g.permits kind = true ∧ n ∈ g.widths ∧ g.base ≤ a.toNat ∧ a.toNat + n ≤ g.base + g.size := by
  simp only [Params.admits, List.any_eq_true, Bool.and_eq_true, decide_eq_true_eq, and_assoc]

/-- Only a plain access under ALIGN_POLICY allow may be misaligned (20_memory.md R54). -/
theorem aligned_iff {p : Params} {a : Word} {n : Nat} {kind : AccessKind} : p.aligned a n kind = true ↔
    a.toNat % n = 0 ∨ p.alignPolicy = .allow ∧ kind ≠ .atomic := by
  simp only [Params.aligned, Bool.or_eq_true, Bool.and_eq_true, decide_eq_true_eq, or_comm]

theorem accessOk_iff {p : Params} {a : Word} {z : Size} {kind : AccessKind} : p.accessOk a z kind = true ↔
    a.toNat + z.bytes ≤ 2 ^ 64 ∧ p.aligned a z.bytes kind = true ∧ p.admits a z.bytes kind = true := by
  simp only [Params.accessOk, Bool.and_eq_true, decide_eq_true_eq, and_assoc]

/-- The effective address is the sum in the integers, modulo 2^64 (20_memory.md R57). -/
theorem effectiveAddr_toNat (a : Word) (offset : BitVec 16) :
    ((effectiveAddr a offset).toNat : Int) = ((a.toNat : Int) + offset.toInt) % 2 ^ 64 := by
  rw [effectiveAddr, BitVec.signExtend, BitVec.toNat_add, BitVec.toNat_ofInt]
  push_cast
  omega

/-! ### How loads, stores and atomics run -/

section
variable {s : State} {dst src : Reg} {offset : BitVec 16} {base y e : Word} {z : Size}

theorem loadReg_run (ext : Word → Word) (dst : Reg) (hbase : s.reg src = .holds base)
    (hok : s.params.accessOk (effectiveAddr base offset) z .read = true) :
    loadReg z ext dst src offset s =
      .next ((s.setReg dst (ext (s.load (effectiveAddr base offset) z))).advance 1) := by
  rw [loadReg, readReg_holds hbase, memRead, checkAccess_ok hok, writeAndAdvance]

theorem storeImm_run (imm : BitVec 32) (hbase : s.reg dst = .holds base)
    (hok : s.params.accessOk (effectiveAddr base offset) z .write = true) :
    storeImm z dst offset imm s = .next ((s.store (effectiveAddr base offset) z (imm.signExtend 64)).advance 1) := by
  rw [storeImm, readReg_holds hbase, memWrite, checkAccess_ok hok]

theorem storeReg_run (hbase : s.reg dst = .holds base) (hy : s.reg src = .holds y)
    (hok : s.params.accessOk (effectiveAddr base offset) z .write = true) :
    storeReg z dst src offset s = .next ((s.store (effectiveAddr base offset) z y).advance 1) := by
  rw [storeReg, readReg_holds hbase, readReg_holds hy, memWrite, checkAccess_ok hok]

theorem atomic_run (f : Word → Word → Word) (hbase : s.reg dst = .holds base) (hy : s.reg src = .holds y)
    (hok : s.params.accessOk (effectiveAddr base offset) z .atomic = true) :
    atomic z f dst src offset s =
      .next ((s.store (effectiveAddr base offset) z (f (s.load (effectiveAddr base offset) z) y)).advance 1) := by
  rw [atomic, readReg_holds hbase, readReg_holds hy, atomicRmw, checkAccess_ok hok]

theorem atomicFetch_run (f : Word → Word → Word) (hbase : s.reg dst = .holds base) (hy : s.reg src = .holds y)
    (hok : s.params.accessOk (effectiveAddr base offset) z .atomic = true) :
    atomicFetch z f dst src offset s =
      .next (((s.store (effectiveAddr base offset) z (f (s.load (effectiveAddr base offset) z) y)).setReg src
        (s.load (effectiveAddr base offset) z)).advance 1) := by
  rw [atomicFetch, readReg_holds hbase, readReg_holds hy, atomicRmw, checkAccess_ok hok]
  rfl

theorem atomicCmpxchg_run_match {low : Word → Word} (hbase : s.reg dst = .holds base) (hy : s.reg src = .holds y)
    (he : s.reg .r0 = .holds e) (hok : s.params.accessOk (effectiveAddr base offset) z .atomic = true)
    (hmatch : s.load (effectiveAddr base offset) z = low e) :
    atomicCmpxchg z low dst src offset s =
      .next (((s.store (effectiveAddr base offset) z y).setReg .r0
        (s.load (effectiveAddr base offset) z)).advance 1) := by
  rw [atomicCmpxchg, readReg_holds hbase, readReg_holds hy, readReg_holds he, atomicRmw, checkAccess_ok hok,
    if_pos hmatch]
  rfl

theorem atomicCmpxchg_run_mismatch {low : Word → Word} (hbase : s.reg dst = .holds base) (hy : s.reg src = .holds y)
    (he : s.reg .r0 = .holds e) (hok : s.params.accessOk (effectiveAddr base offset) z .atomic = true)
    (hne : s.load (effectiveAddr base offset) z ≠ low e) :
    atomicCmpxchg z low dst src offset s =
      .next ((s.setReg .r0 (s.load (effectiveAddr base offset) z)).advance 1) := by
  rw [atomicCmpxchg, readReg_holds hbase, readReg_holds hy, readReg_holds he, atomicRmw, checkAccess_ok hok,
    if_neg hne, writeAndAdvance]

end

/-! ### What the states they leave are -/

section
variable {s : State} {i : Instr} {a v new old : Word} {z : Size} {r : Reg}

theorem completes_of_next (run : exec i s = .next ((s.setReg r v).advance 1)) (basic : i.length = 1) :
    Completes i s r v := by
  refine ⟨_, run, ?_⟩
  rw [basic]
  exact wroteReg_setReg s r v 1

theorem stores_of_next (run : exec i s = .next ((s.store a z v).advance 1)) : Stores i s a z v := by
  obtain ⟨stored, read, othersStored, othersRead⟩ := storedAt_store s a z v
  exact ⟨_, run, ⟨stored, read, othersStored, othersRead⟩, fun _ => rfl, rfl, ⟨rfl, rfl, rfl, rfl, rfl, rfl⟩⟩

theorem exchanges_of_next (run : exec i s = .next (((s.store a z new).setReg r old).advance 1)) :
    Exchanges i s a z new r old := by
  obtain ⟨stored, read, othersStored, othersRead⟩ := storedAt_store s a z new
  refine ⟨_, run, ⟨stored, read, othersStored, othersRead⟩, by simp, fun q hq => ?_, rfl,
    ⟨rfl, rfl, rfl, rfl, rfl, rfl⟩⟩
  simp [State.reg_setReg_other _ _ hq]

end

/-! ### Bytes and numbers -/

/-- Which byte of an `n`-byte number memory holds at offset `k`, counted from the low end (20_memory.md R53). -/
def bytePlace (e : Endian) (n k : Nat) : Nat :=
  match e with
  | .little => k
  | .big => n - 1 - k

theorem memoryBytes_getElem (e : Endian) (n : Nat) (v : Word) (k : Nat) (h : k < (memoryBytes e n v).length) :
    (memoryBytes e n v)[k] = v.extractLsb' (8 * bytePlace e n k) 8 := by
  cases e <;> simp [memoryBytes, bytePlace]

theorem spelledAt_byte {s : State} {a v : Word} {n k : Nat} (h : SpelledAt s a n v) (hk : k < n) :
    v.extractLsb' (8 * bytePlace s.params.hostEndian n k) 8 = s.byteAt (a + BitVec.ofNat 64 k) := by
  cases he : s.params.hostEndian with
  | little => exact h.little he k hk
  | big => exact h.big he k hk

/-- The bytes a store writes are settled by the low bits of the number. -/
theorem memoryBytes_congr (e : Endian) {n : Nat} {v w : Word} (h : ∀ k < 8 * n, v.getLsbD k = w.getLsbD k) :
    memoryBytes e n v = memoryBytes e n w := by
  have hbyte : ∀ k < n, v.extractLsb' (8 * k) 8 = w.extractLsb' (8 * k) 8 := by
    intro k hk
    apply BitVec.eq_of_getLsbD_eq
    intro j hj
    simp only [BitVec.getLsbD_extractLsb', h (8 * k + j) (by omega)]
  refine List.map_congr_left fun k hk => ?_
  rw [List.mem_range] at hk
  cases e with
  | little => exact hbyte k hk
  | big => exact hbyte (n - 1 - k) (by omega)

/-- Sign and zero extension of an immediate store the same 1, 2 or 4 bytes (45_load_store.md R290). -/
theorem memoryBytes_signExtend (e : Endian) {n : Nat} (hn : n ≤ 4) (imm : BitVec 32) :
    memoryBytes e n (imm.signExtend 64) = memoryBytes e n (imm.setWidth 64) := by
  refine memoryBytes_congr e fun k hk => ?_
  have h32 : k < 32 := by omega
  rw [BitVec.getLsbD_signExtend, BitVec.getLsbD_setWidth, if_pos h32]

/-- Sign extension of the low bits, in the integers (00_scope.md R10). -/
theorem signExtendLow_eq_ofInt (n : Nat) (v : Word) :
    signExtendLow n v = BitVec.ofInt 64 (Int.bmod v.toNat (2 ^ n)) := by
  rw [signExtendLow, BitVec.signExtend, BitVec.toInt_setWidth]

/-- A number of `n` bytes that are those of `v` from byte `d` on is that part of `v`. -/
theorem toNat_eq_of_bytes {x v : Word} {n d : Nat} (hbound : x.toNat < 2 ^ (8 * n))
    (hbytes : ∀ j < n, x.extractLsb' (8 * j) 8 = v.extractLsb' (8 * (d + j)) 8) :
    x.toNat = v.toNat / 2 ^ (8 * d) % 2 ^ (8 * n) := by
  apply Nat.eq_of_testBit_eq
  intro i
  rw [Nat.testBit_mod_two_pow, Nat.testBit_div_two_pow, BitVec.testBit_toNat, BitVec.testBit_toNat]
  by_cases hi : i < 8 * n
  · have hbit := congrArg (fun b => b.getLsbD (i % 8)) (hbytes (i / 8) (by omega))
    have hlow : i % 8 < 8 := Nat.mod_lt _ (by omega)
    have hx : 8 * (i / 8) + i % 8 = i := Nat.div_add_mod i 8
    have hv : 8 * (d + i / 8) + i % 8 = i + 8 * d := by omega
    simpa [BitVec.getLsbD_extractLsb', hlow, hx, hv, hi] using hbit
  · have hhigh : x.getLsbD i = false :=
      Nat.testBit_lt_two_pow (hbound.trans_le (Nat.pow_le_pow_right (by omega) (by omega)))
    simp [hi, hhigh]

/-- A byte of the program's own memory reads as the store before it left it. -/
theorem byteAt_store {s : State} {a v : Word} {z : Size} {k : Nat} (hk : k < z.bytes)
    (hp : s.params.isPrivate (a + BitVec.ofNat 64 k) = true) :
    (s.store a z v).byteAt (a + BitVec.ofNat 64 k) =
      v.extractLsb' (8 * bytePlace s.params.hostEndian z.bytes k) 8 := by
  have hlen : k < (memoryBytes s.params.hostEndian z.bytes v).length := by simpa using hk
  rw [(storedAt_store s a z v).read k hlen hp, memoryBytes_getElem]

/-- Each byte of a load that lies inside a store to memory of the program's own, `k` bytes on, is a byte of the value
stored (20_memory.md R52). -/
theorem load_store_byte {s : State} {a v : Word} {wide narrow : Size} {k j : Nat}
    (hin : k + narrow.bytes ≤ wide.bytes)
    (howned : ∀ j < wide.bytes, s.params.isPrivate (a + BitVec.ofNat 64 j) = true) (hj : j < narrow.bytes) :
    ((s.store a wide v).load (a + BitVec.ofNat 64 k) narrow).extractLsb'
        (8 * bytePlace s.params.hostEndian narrow.bytes j) 8 =
      v.extractLsb' (8 * bytePlace s.params.hostEndian wide.bytes (k + j)) 8 := by
  have haddr : a + BitVec.ofNat 64 k + BitVec.ofNat 64 j = a + BitVec.ofNat 64 (k + j) := by
    rw [BitVec.ofNat_add, BitVec.add_assoc]
  have hspelled := spelledAt_byte (load_spelledAt (s.store a wide v) (a + BitVec.ofNat 64 k) narrow) hj
  rwa [haddr, byteAt_store (by omega) (howned _ (by omega)), State.store_params] at hspelled

end Sys2Proof.Proofs

namespace Sys2Proof.Proofs

open Machine

/-! ### The statements -/

/-- Settles O15: by induction on the number of steps; every effect keeps both, and a fault or a refusal changes only
the status. -/
theorem textAndParamsNeverChange : Obligations.TextAndParamsNeverChange := by
  intro n s
  exact runFor_keeps_program n s

/-- Settles O16: of the effects of the fetched instruction, stores, helper calls and program-local calls alone touch
memory, each at the addresses its lemma names. -/
theorem memoryChangesOnlyWhereAdmitted : Obligations.MemoryChangesOnlyWhereAdmitted := by
  intro s t a h hne
  obtain ⟨i, u, hf, he, rfl⟩ := step_effect h
  refine ⟨i, hf, ?_⟩
  cases he with
  | stored request held admitted changes =>
    obtain ⟨k, hk, ha⟩ := store_changes hne
    exact .inl ⟨_, _, k, request, changes, held, admitted, hk, ha⟩
  | exchanged _ request held admitted changes =>
    obtain ⟨k, hk, ha⟩ := store_changes hne
    exact .inl ⟨_, _, k, request, changes, held, admitted, hk, ha⟩
  | helped which => exact .inr (.inl ⟨⟨_, which⟩, afterHelper_changes hne⟩)
  | entered which => exact .inr (.inr ⟨⟨_, which⟩, enterFunction_changes hne⟩)
  | left => exact absurd (by simp) hne
  | wrote | jumped | passed | ended => exact absurd rfl hne

/-- Settles O53: the three checks of `accessOk`, and the sum of `effectiveAddr` in the integers. -/
theorem accessRule : Obligations.AccessRule := by
  intro p a z kind offset
  refine ⟨?_, effectiveAddr_toNat a offset⟩
  rw [accessOk_iff, aligned_iff, admits_iff]

/-- Settles O47: a load gives the number spelled at its address, as it is or with its low bits sign-extended. -/
theorem loadsZeroOrSignExtend : Obligations.LoadsZeroOrSignExtend := by
  intro s dst src offset base hbase
  simp only [← signExtendLow_eq_ofInt]
  refine ⟨fun hok => ⟨_, load_spelledAt s _ .b, ?_, ?_⟩, fun hok => ⟨_, load_spelledAt s _ .h, ?_, ?_⟩,
    fun hok => ⟨_, load_spelledAt s _ .w, ?_, ?_⟩, fun hok => ⟨_, load_spelledAt s _ .dw, ?_⟩⟩
  all_goals exact completes_of_next (loadReg_run _ dst hbase hok) rfl

/-- Settles O48: a store of an immediate stores bytes of its sign extension, and up to 4 of them are the immediate's
own. -/
theorem storesOfImmediates : Obligations.StoresOfImmediates := by
  intro s dst offset imm base hbase
  refine ⟨fun hok => ?_, fun hok => ?_, fun hok => ?_, fun hok => stores_of_next (storeImm_run imm hbase hok)⟩
  all_goals
    rw [Stores, ← memoryBytes_signExtend _ (by decide)]
    exact stores_of_next (storeImm_run imm hbase hok)

/-- Settles O49: the four sizes of `storeReg_run`. -/
theorem storesOfRegisters : Obligations.StoresOfRegisters := by
  intro s dst src offset base y hbase hy
  refine ⟨fun hok => ?_, fun hok => ?_, fun hok => ?_, fun hok => ?_⟩
  all_goals exact stores_of_next (storeReg_run hbase hy hok)

/-- Settles O50: the four operations of `atomic_run` at both sizes, on the number spelled at the address. -/
theorem atomicsWithoutFetch : Obligations.AtomicsWithoutFetch := by
  intro s dst src offset base y hbase hy
  refine ⟨fun hok => ⟨_, load_spelledAt s _ .w, ?_, ?_, ?_, ?_⟩,
    fun hok => ⟨_, load_spelledAt s _ .dw, ?_, ?_, ?_, ?_⟩⟩
  all_goals exact stores_of_next (atomic_run _ hbase hy hok)

/-- Settles O51: the five operations of `atomicFetch_run` at both sizes; the address and the operand are read before
the source register is written. -/
theorem atomicsWithFetchAndExchange : Obligations.AtomicsWithFetchAndExchange := by
  intro s dst src offset base y hbase hy
  refine ⟨fun hok => ⟨_, load_spelledAt s _ .w, ?_, ?_, ?_, ?_, ?_⟩,
    fun hok => ⟨_, load_spelledAt s _ .dw, ?_, ?_, ?_, ?_, ?_⟩⟩
  all_goals exact exchanges_of_next (atomicFetch_run _ hbase hy hok)

/-- Settles O52: whether the number spelled at the address is the part of R0 it is compared with decides which way
CMPXCHG runs. -/
theorem compareAndExchange : Obligations.CompareAndExchange := by
  intro s dst src offset base y e hbase hy he
  have hlow : (zeroExtendLow 32 e).toNat = e.toNat % 2 ^ 32 := zeroExtendLow_toNat (by decide) e
  refine ⟨fun hok => ⟨_, load_spelledAt s _ .w, fun hmatch => ?_, fun hne => ?_⟩,
    fun hok => ⟨_, load_spelledAt s _ .dw, fun hmatch => ?_, fun hne => ?_⟩⟩
  · exact exchanges_of_next (atomicCmpxchg_run_match hbase hy he hok (BitVec.eq_of_toNat_eq (hmatch.trans hlow.symm)))
  · refine completes_of_next (atomicCmpxchg_run_mismatch hbase hy he hok fun h => hne ?_) rfl
    rw [h, hlow]
  · exact exchanges_of_next (atomicCmpxchg_run_match hbase hy he hok (BitVec.eq_of_toNat_eq hmatch))
  · exact completes_of_next (atomicCmpxchg_run_mismatch hbase hy he hok fun h => hne (congrArg BitVec.toNat h)) rfl

/-- Settles O56: the bytes of the load are bytes of the value stored, counted from its low end on a little-endian host
and from its high end on a big-endian one. -/
theorem narrowLoadAfterWideStore : Obligations.NarrowLoadAfterWideStore := by
  intro s a v wide narrow k hin howned
  have hbound := (load_spelledAt (s.store a wide v) (a + BitVec.ofNat 64 k) narrow).bound
  refine ⟨fun he => toNat_eq_of_bytes hbound fun j hj => ?_, fun he => toNat_eq_of_bytes hbound fun j hj => ?_⟩
  · simpa only [he, bytePlace] using load_store_byte hin howned hj
  · have hbyte := load_store_byte (v := v) hin howned (j := narrow.bytes - 1 - j) (by omega)
    have hx : narrow.bytes - 1 - (narrow.bytes - 1 - j) = j := by omega
    have hv : wide.bytes - 1 - (k + (narrow.bytes - 1 - j)) = wide.bytes - k - narrow.bytes + j := by omega
    simpa only [he, bytePlace, hx, hv] using hbyte

end Sys2Proof.Proofs
end

section
/-!
PROOFS. The encoding (30_encoding.md): where the fields of a slot and of a canonical word lie, the fields of whatever
the decoder answers, the opcode map, a step of a decoded instruction, and the statements of the family.
-/
namespace Sys2Proof.Proofs

open Machine

/-! ### Where the fields lie -/

/-- The number a concatenation spells. -/
theorem toNat_append_eq {m n : Nat} (x : BitVec m) (y : BitVec n) :
    (x ++ y).toNat = x.toNat * 2 ^ n + y.toNat := by
  rw [BitVec.toNat_append, ← Nat.shiftLeft_add_eq_or_of_lt y.isLt, Nat.shiftLeft_eq]

/-- A byte is its high half and its low half (30_encoding.md R82, R83). -/
theorem toNat_eq_halves (x : Byte) : x.toNat = (x.extractLsb' 4 4).toNat * 16 + (x.extractLsb' 0 4).toNat := by
  have hx := x.isLt
  simp only [BitVec.extractLsb'_toNat, Nat.shiftRight_eq_div_pow]
  omega

/-- The canonical word holds the fields from bit 0 up (30_encoding.md R81). -/
theorem word_toNat (f : Fields) : f.word.toNat = f.opcode.toNat + f.dst.toNat * 2 ^ 8 + f.src.toNat * 2 ^ 12 +
    f.offset.toNat * 2 ^ 16 + f.imm.toNat * 2 ^ 32 := by
  simp only [Fields.word, toNat_append_eq]
  omega

/-! ### The fields of a decoded instruction -/

theorem regOf_eq_some_iff {n : BitVec 4} {r : Reg} : regOf n = some r ↔ r.num = n :=
  ⟨regOf_eq_some, fun h => h ▸ regOf_num r⟩

/-- The instruction is encoded in these fields, its unused ones zero (30_encoding.md R88). -/
def HasFields (a : Fields) (i : Instr) : Prop := i.fields = a

/-- Field by field, with the numbers the decoder's tables select by. -/
theorem hasFields_iff {a : Fields} {i : Instr} : HasFields a i ↔
    i.fields.opcode.toNat = a.opcode.toNat ∧ i.fields.dst = a.dst ∧ i.fields.src.toNat = a.src.toNat ∧
      i.fields.offset.toNat = a.offset.toNat ∧ i.fields.imm.toNat = a.imm.toNat := by
  rw [HasFields]
  cases a
  cases i.fields
  simp only [BitVec.toNat_inj, Fields.mk.injEq]

theorem decodeAlu_hasFields (a : Fields) : Answers (HasFields a) (decodeAlu a) := by
  unfold decodeAlu signSelect swapForm
  repeat' split
  all_goals simp +contextual [noOffset, kForm, xForm, negForm, hasFields_iff, Instr.fields, regOf_eq_some_iff, *]

theorem decodeAlu64_hasFields (a : Fields) : Answers (HasFields a) (decodeAlu64 a) := by
  unfold decodeAlu64 signSelect swapForm
  repeat' split
  all_goals simp +contextual [noOffset, kForm, xForm, negForm, hasFields_iff, Instr.fields, regOf_eq_some_iff, *]

theorem decodeJmp_hasFields (a : Fields) : Answers (HasFields a) (decodeJmp a) := by
  unfold decodeJmp
  repeat' split
  all_goals simp +contextual [jaForm, jumpKForm, jumpXForm, callForm, exitForm, hasFields_iff, Instr.fields,
    regOf_eq_some_iff, *]

theorem decodeJmp32_hasFields (a : Fields) : Answers (HasFields a) (decodeJmp32 a) := by
  unfold decodeJmp32
  split
  all_goals simp +contextual [ja32Form, jumpKForm, jumpXForm, hasFields_iff, Instr.fields, regOf_eq_some_iff, *]

theorem decodeLdx_hasFields (a : Fields) : Answers (HasFields a) (decodeLdx a) := by
  unfold decodeLdx
  split
  all_goals simp +contextual [memForm, hasFields_iff, Instr.fields, regOf_eq_some_iff, *]

theorem decodeSt_hasFields (a : Fields) : Answers (HasFields a) (decodeSt a) := by
  unfold decodeSt
  split
  all_goals simp +contextual [storeImmForm, hasFields_iff, Instr.fields, regOf_eq_some_iff, *]

theorem decodeStx_hasFields (a : Fields) : Answers (HasFields a) (decodeStx a) := by
  unfold decodeStx
  repeat' split
  all_goals simp +contextual [memForm, atomicForm, hasFields_iff, Instr.fields, regOf_eq_some_iff, *]

/-- The fields of a second slot with this `next_imm`: all others are zero (30_encoding.md R85). -/
def secondHalf (n : BitVec 32) : Fields := { Fields.ofOpcode 0 with imm := n }

theorem secondFields_eq_some_iff {i : Instr} {b : Fields} :
    i.secondFields = some b ↔ ∃ n, i.nextImm? = some n ∧ secondHalf n = b := by
  simp only [Instr.secondFields, secondHalf, Option.map_eq_some_iff]

theorem secondFields_eq_none_of_length {i : Instr} (h : i.length = 1) : i.secondFields = none := by
  cases hn : i.nextImm? <;> simp_all [Instr.length, Instr.secondFields]

theorem secondHalf_imm {b : Fields} (hopcode : b.opcode = 0) (hdst : b.dst = 0) (hsrc : b.src = 0)
    (hoffset : b.offset = 0) : secondHalf b.imm = b := by
  cases b
  simp_all [secondHalf, Fields.ofOpcode]

section
variable {P : Instr → Prop} {a b : Fields}

/-- A wide load that uses both immediates has a second slot that holds `next_imm` alone (47_imm64.md R350). -/
theorem answers_wideForm {mk : Reg → BitVec 32 → BitVec 32 → Instr}
    (h : a.offset = 0 → secondHalf b.imm = b → ∀ d, d.num = a.dst → P (mk d a.imm b.imm)) :
    Answers P (wideForm a b mk) := by
  simp only [wideForm, answers_unusedZero, answers_withReg, answers_ok, Bool.and_eq_true, decide_eq_true_eq,
    regOf_eq_some_iff]
  rintro ⟨⟨⟨⟨hoffset, hopcode⟩, hdst⟩, hsrc⟩, hoffset2⟩
  exact h hoffset (secondHalf_imm hopcode hdst hsrc hoffset2)

/-- A wide load that does not use `next_imm` has a second slot of zeros (47_imm64.md R350). -/
theorem answers_wideForm1 {mk : Reg → BitVec 32 → Instr}
    (h : a.offset = 0 → secondHalf 0 = b → ∀ d, d.num = a.dst → P (mk d a.imm)) :
    Answers P (wideForm1 a b mk) := by
  simp only [wideForm1, answers_unusedZero, answers_withReg, answers_ok, Bool.and_eq_true, decide_eq_true_eq,
    regOf_eq_some_iff]
  rintro ⟨⟨⟨⟨⟨hoffset, hopcode⟩, hdst⟩, hsrc⟩, hoffset2⟩, himm⟩
  exact h hoffset (himm ▸ secondHalf_imm hopcode hdst hsrc hoffset2)

theorem decodeWide_hasFields (hwide : a.opcode = 0x18) :
    Answers (fun i => HasFields a i ∧ i.secondFields = some b) (decodeWide a b) := by
  unfold decodeWide
  split
  case h_8 => exact answers_error _
  case h_1 | h_3 | h_7 =>
    refine answers_wideForm fun hoffset hsecond d hd => ⟨?_, secondFields_eq_some_iff.mpr ⟨_, rfl, hsecond⟩⟩
    simp [hasFields_iff, Instr.fields, *]
  all_goals
    refine answers_wideForm1 fun hoffset hsecond d hd => ⟨?_, secondFields_eq_some_iff.mpr ⟨_, rfl, hsecond⟩⟩
    simp [hasFields_iff, Instr.fields, *]

end

theorem decodeLd_hasFields (a : Fields) (second : Option Fields) : Answers (HasFields a) (decodeLd a second) := by
  unfold decodeLd
  split
  case h_1 hopcode =>
    split
    · exact fun i h => (decodeWide_hasFields (BitVec.eq_of_toNat_eq hopcode) i h).1
    · exact answers_error _
  all_goals simp +contextual [absForm, indForm, hasFields_iff, Instr.fields, regOf_eq_some_iff, *]

/-- Whatever the decoder answers is encoded in the fields it was given. -/
theorem decode_hasFields (a : Fields) (second : Option Fields) : Answers (HasFields a) (decode a second) := by
  unfold decode
  split
  · exact decodeLd_hasFields a second
  · exact decodeLdx_hasFields a
  · exact decodeSt_hasFields a
  · exact decodeStx_hasFields a
  · exact decodeAlu_hasFields a
  · exact decodeJmp_hasFields a
  · exact decodeJmp32_hasFields a
  · exact decodeAlu64_hasFields a

/-- A second slot of a decoded instruction is the one the decoder was given (30_encoding.md R98 (3)). -/
theorem decode_secondFields {a b : Fields} {second : Option Fields} {i : Instr} (h : decode a second = .ok i)
    (hb : i.secondFields = some b) : second = some b := by
  obtain ⟨hwide, hsome, _⟩ | ⟨_, hlen⟩ := decode_ok h
  · obtain ⟨c, rfl⟩ := Option.isSome_iff_exists.mp hsome
    have hdec : decodeWide a c = .ok i := by simpa [decode, decodeLd, hwide] using h
    obtain ⟨_, hc⟩ := decodeWide_hasFields hwide i hdec
    exact hc.symm.trans hb
  · cases (secondFields_eq_none_of_length hlen).symm.trans hb

/-! ### The opcode map -/

/-- The opcode bytes the opcode map lists for an instruction class (30_encoding.md R86, R93 to R95). -/
def opcodesOfClass : Nat → List Nat
  | 0 => [0x18, 0x20, 0x28, 0x30, 0x40, 0x48, 0x50]
  | 1 => [0x61, 0x69, 0x71, 0x79, 0x81, 0x89, 0x91]
  | 2 => [0x62, 0x6a, 0x72, 0x7a]
  | 3 => [0x63, 0x6b, 0x73, 0x7b, 0xc3, 0xdb]
  | 4 => [0x04, 0x0c, 0x14, 0x1c, 0x24, 0x2c, 0x34, 0x3c, 0x44, 0x4c, 0x54, 0x5c, 0x64, 0x6c, 0x74, 0x7c, 0x84, 0x94,
    0x9c, 0xa4, 0xac, 0xb4, 0xbc, 0xc4, 0xcc, 0xd4, 0xdc]
  | 5 => [0x05, 0x15, 0x1d, 0x25, 0x2d, 0x35, 0x3d, 0x45, 0x4d, 0x55, 0x5d, 0x65, 0x6d, 0x75, 0x7d, 0x85, 0x95, 0xa5,
    0xad, 0xb5, 0xbd, 0xc5, 0xcd, 0xd5, 0xdd]
  | 6 => [0x06, 0x16, 0x1e, 0x26, 0x2e, 0x36, 0x3e, 0x46, 0x4e, 0x56, 0x5e, 0x66, 0x6e, 0x76, 0x7e, 0xa6, 0xae, 0xb6,
    0xbe, 0xc6, 0xce, 0xd6, 0xde]
  | _ => [0x07, 0x0f, 0x17, 0x1f, 0x27, 0x2f, 0x37, 0x3f, 0x47, 0x4f, 0x57, 0x5f, 0x67, 0x6f, 0x77, 0x7f, 0x87, 0x97,
    0x9f, 0xa7, 0xaf, 0xb7, 0xbf, 0xc7, 0xcf, 0xd7]

/-- Does the opcode map list this byte, under its class? -/
def mapped (opcode : BitVec 8) : Bool := decide (opcode.toNat ∈ opcodesOfClass (opcode.toNat % 8))

/-- The decoder of a class answers `unknownOpcode` unless the class lists the opcode byte. -/
def KnownIn (c : Nat) (a : Fields) (k : Decoded) : Prop :=
  k = .error .unknownOpcode ∨ a.opcode.toNat ∈ opcodesOfClass c

theorem decodeLd_knownIn (a : Fields) (second : Option Fields) : KnownIn 0 a (decodeLd a second) := by
  unfold decodeLd
  split
  all_goals simp [KnownIn, opcodesOfClass, *]

theorem decodeLdx_knownIn (a : Fields) : KnownIn 1 a (decodeLdx a) := by
  unfold decodeLdx
  split
  all_goals simp [KnownIn, opcodesOfClass, *]

theorem decodeSt_knownIn (a : Fields) : KnownIn 2 a (decodeSt a) := by
  unfold decodeSt
  split
  all_goals simp [KnownIn, opcodesOfClass, *]

theorem decodeStx_knownIn (a : Fields) : KnownIn 3 a (decodeStx a) := by
  unfold decodeStx
  split
  all_goals simp [KnownIn, opcodesOfClass, *]

theorem decodeAlu_knownIn (a : Fields) : KnownIn 4 a (decodeAlu a) := by
  unfold decodeAlu
  split
  all_goals simp [KnownIn, opcodesOfClass, *]

theorem decodeJmp_knownIn (a : Fields) : KnownIn 5 a (decodeJmp a) := by
  unfold decodeJmp
  split
  all_goals simp [KnownIn, opcodesOfClass, *]

theorem decodeJmp32_knownIn (a : Fields) : KnownIn 6 a (decodeJmp32 a) := by
  unfold decodeJmp32
  split
  all_goals simp [KnownIn, opcodesOfClass, *]

theorem decodeAlu64_knownIn (a : Fields) : KnownIn 7 a (decodeAlu64 a) := by
  unfold decodeAlu64
  split
  all_goals simp [KnownIn, opcodesOfClass, *]

theorem decode_knownIn (a : Fields) (second : Option Fields) :
    KnownIn (a.opcode.toNat % 8) a (decode a second) := by
  unfold decode
  split
  case h_1 hclass => rw [hclass]; exact decodeLd_knownIn a second
  case h_2 hclass => rw [hclass]; exact decodeLdx_knownIn a
  case h_3 hclass => rw [hclass]; exact decodeSt_knownIn a
  case h_4 hclass => rw [hclass]; exact decodeStx_knownIn a
  case h_5 hclass => rw [hclass]; exact decodeAlu_knownIn a
  case h_6 hclass => rw [hclass]; exact decodeJmp_knownIn a
  case h_7 hclass => rw [hclass]; exact decodeJmp32_knownIn a
  case h_8 =>
    have hclass : a.opcode.toNat % 8 = 7 := by grind
    rw [hclass]; exact decodeAlu64_knownIn a

/-- An opcode byte outside the map spells no instruction (30_encoding.md R96). -/
theorem decode_of_not_mapped {a : Fields} (second : Option Fields) (h : mapped a.opcode = false) :
    decode a second = .error .unknownOpcode :=
  (decode_knownIn a second).resolve_right (of_decide_eq_false h)

/-- Fields with this opcode and all others zero, but for the width of a byte swap, where 0 selects no operation
(42_byteswap.md R202). -/
def sampleFields (opcode : BitVec 8) : Fields :=
  { Fields.ofOpcode opcode with imm := if opcode.toNat ∈ [0xd4, 0xd7, 0xdc] then 16 else 0 }

/-- The decoder accepts some word of every opcode byte in the map (30_encoding.md R93 to R95). -/
theorem decode_sampleFields_isOk : ∀ opcode : BitVec 8, mapped opcode = true →
    (decode (sampleFields opcode) (some (secondHalf 0))).isOk = true := by
  decide

theorem exists_ok_of_isOk {k : Decoded} (h : k.isOk = true) : ∃ i, k = .ok i := by
  cases k with
  | ok i => exact ⟨i, rfl⟩
  | error e => cases h

/-! ### A step of a decoded instruction -/

section
variable {s : State} {i : Instr}

/-- A slot that decodes to an instruction the machine executes is fetched as that instruction (30_encoding.md R98). -/
theorem fetch_of_wellFormed {x : Slot} (hx : s.text[s.pc]? = some x)
    (hd : decodeSlots s.params.hostEndian x s.text[s.pc + 1]? = .ok i) (hw : i.wellFormed s.params = true) :
    fetch s = .ok i := by
  simp [fetch, hx, hd, hw]

theorem step_of_fetch_ok (hr : s.status = .running) (hf : fetch s = .ok i) : step s = tick (exec i s) := by
  simp [step, hr, hf]

end

end Sys2Proof.Proofs

namespace Sys2Proof.Proofs

open Machine

/-! ### The statements -/

/-- Settles O1: the slots hold the instruction's fields on either host, and decoding those gives it back. -/
theorem decodeEncodeSlots : Obligations.DecodeEncodeSlots := by
  intro e i next
  exact decodeSlots_encodeSlots e i next

/-- Settles O2: every form of the decoder keeps the fields it was given and wants the others zero, and only a wide
form has a second slot, the one it was given. -/
theorem decodedFieldsAreEncoded : Obligations.DecodedFieldsAreEncoded := by
  intro a second i h
  exact ⟨decode_hasFields a second i h, fun b hb => decode_secondFields h hb⟩

/-- Settles O6: a byte is in the statement's list exactly if the opcode map does not list it. -/
theorem unlistedOpcodesRefused : Obligations.UnlistedOpcodesRefused := by
  intro opcode
  split
  case isTrue hunlisted =>
    have hmapped : mapped opcode = false := by revert hunlisted; revert opcode; decide
    rintro a second rfl
    exact decode_of_not_mapped second hmapped
  case isFalse hlisted =>
    have hmapped : mapped opcode = true := by revert hlisted; revert opcode; decide
    obtain ⟨i, hi⟩ := exists_ok_of_isOk (decode_sampleFields_isOk opcode hmapped)
    exact ⟨sampleFields opcode, some (secondHalf 0), i, rfl, hi⟩

/-- Settles O3: each equation is the decoder's own answer on the eight bytes; ADD_K_ALU64 is no wide instruction, so
the next slot is not looked at. -/
theorem workedExampleBothHosts : Obligations.WorkedExampleBothHosts := by
  intro next
  exact ⟨rfl, rfl, rfl, rfl, rfl⟩

/-- Settles O4: byte 1 is its two halves, and `offset` and `imm` are concatenations of bytes. -/
theorem slotFieldLayout : Obligations.SlotFieldLayout := by
  intro x
  refine ⟨⟨rfl, toNat_eq_halves x.b1, ?_, ?_⟩, ⟨rfl, toNat_eq_halves x.b1, ?_, ?_⟩⟩
  all_goals
    simp only [Slot.fields, toNat_append_eq]
    omega

/-- Settles O5: the canonical word is a concatenation of the fields, and each sample is the decoder's own answer. -/
theorem sampleWordsDecode : Obligations.SampleWordsDecode :=
  ⟨word_toNat, rfl, rfl, rfl, rfl, rfl, rfl, rfl, rfl, rfl⟩

/-- Settles O7: the fetch answers the decoded instruction, and the step is its outcome with the environment moved
on. -/
theorem stepRunsDecodedInstruction : Obligations.StepRunsDecodedInstruction := by
  intro s slot i hr hslot hdec hw
  have hstep : step s = tick (exec i s) := step_of_fetch_ok hr (fetch_of_wellFormed hslot hdec hw)
  refine ⟨fun t hnext => ?_, fun f hfault => ?_, fun r hrefused => ?_⟩
  · rw [hstep, hnext, tick]
  · rw [hstep, hfault, tick]
  · rw [hstep, hrefused, tick]

end Sys2Proof.Proofs
end

section
/-!
PROOFS. The arithmetic of class ALU (40_arith_alu.md), and the shifts and the signed divisions of both classes.
-/
namespace Sys2Proof.Proofs

open Machine

/-! ### Results as numbers -/

section
variable {w : Nat}

/-- A result zero-extended to a register is the register word of the same number (40_arith_alu.md R120). -/
theorem extended_eq_ofNat {r : BitVec w} {n : Nat} (h : r.toNat = n) : r.setWidth 64 = BitVec.ofNat 64 n := by
  rw [← h, BitVec.ofNat_toNat]

/-- A result given as an integer is zero-extended to that integer modulo its own width (40_arith_alu.md R120). -/
theorem extended_eq_ofInt {r : BitVec w} {z : Int} (h : r = BitVec.ofInt w z) :
    r.setWidth 64 = BitVec.ofInt 64 (z % 2 ^ w) := by
  have hz : (0 : Int) ≤ z % 2 ^ w := Int.emod_nonneg _ (by positivity)
  have hn : r.toNat = (z % 2 ^ w).toNat := by rw [h, BitVec.toNat_ofInt]; push_cast; rfl
  rw [extended_eq_ofNat hn, ← BitVec.ofInt_natCast, Int.toNat_of_nonneg hz]

/-- The mask of the low half keeps the low half, zero-extended. -/
theorem and_lowMask (v : Word) : v &&& 0xffffffff#64 = (v.setWidth 32).setWidth 64 := by
  apply BitVec.eq_of_toNat_eq
  rw [BitVec.toNat_and, BitVec.toNat_setWidth_of_le (by decide), BitVec.toNat_setWidth]
  exact Nat.and_two_pow_sub_one_eq_mod v.toNat 32

theorem toNat_sub_wrapped (a b : BitVec w) : (a - b).toNat = (a.toNat + 2 ^ w - b.toNat) % 2 ^ w := by
  rw [BitVec.toNat_sub', Nat.add_sub_assoc b.isLt.le]

/-! ### Division and modulo -/

theorem toNat_eq_zero_iff {b : BitVec w} : b.toNat = 0 ↔ b = 0 := by
  rw [BitVec.toNat_eq]; rfl

theorem toInt_eq_zero_iff {b : BitVec w} : b.toInt = 0 ↔ b = 0 := by
  rw [← BitVec.toInt_inj, BitVec.ofNat_eq_ofNat, BitVec.toInt_zero]

theorem udiv_zero (a : BitVec w) : udiv a 0 = 0 := if_pos rfl
theorem umod_zero (a : BitVec w) : umod a 0 = a := if_pos rfl
theorem sdiv_zero (a : BitVec w) : sdiv a 0 = 0 := if_pos rfl
theorem smod_zero (a : BitVec w) : smod a 0 = a := if_pos rfl

theorem udiv_toNat (a b : BitVec w) : (udiv a b).toNat = if b.toNat = 0 then 0 else a.toNat / b.toNat := by
  by_cases hb : b = 0
  · rw [if_pos (toNat_eq_zero_iff.mpr hb), hb, udiv_zero]
    rfl
  · rw [if_neg (mt toNat_eq_zero_iff.mp hb), udiv, if_neg hb, BitVec.toNat_ofNat]
    exact Nat.mod_eq_of_lt ((Nat.div_le_self _ _).trans_lt a.isLt)

theorem umod_toNat (a b : BitVec w) : (umod a b).toNat = if b.toNat = 0 then a.toNat else a.toNat % b.toNat := by
  by_cases hb : b = 0
  · rw [if_pos (toNat_eq_zero_iff.mpr hb), hb, umod_zero]
  · rw [if_neg (mt toNat_eq_zero_iff.mp hb), umod, if_neg hb, BitVec.toNat_ofNat]
    exact Nat.mod_eq_of_lt ((Nat.mod_le _ _).trans_lt a.isLt)

theorem sdiv_eq_ofInt (a b : BitVec w) :
    sdiv a b = BitVec.ofInt w (if b.toInt = 0 then 0 else Int.tdiv a.toInt b.toInt) := by
  by_cases hb : b = 0
  · rw [if_pos (toInt_eq_zero_iff.mpr hb), hb, sdiv_zero]
    rfl
  · rw [if_neg (mt toInt_eq_zero_iff.mp hb), sdiv, if_neg hb]

theorem smod_eq_ofInt (a b : BitVec w) :
    smod a b = BitVec.ofInt w (if b.toInt = 0 then a.toInt else Int.tmod a.toInt b.toInt) := by
  by_cases hb : b = 0
  · rw [if_pos (toInt_eq_zero_iff.mpr hb), hb, smod_zero, BitVec.ofInt_toInt]
  · rw [if_neg (mt toInt_eq_zero_iff.mp hb), smod, if_neg hb]

/-! ### Shifts -/

theorem shiftAmount32_eq (b : BitVec 32) : shiftAmount32 b = b.toNat % 32 :=
  Nat.and_two_pow_sub_one_eq_mod b.toNat 5

theorem shiftAmount64_eq (b : BitVec 64) : shiftAmount64 b = b.toNat % 64 :=
  Nat.and_two_pow_sub_one_eq_mod b.toNat 6

theorem toNat_shiftLeft_eq_mul (a : BitVec w) (n : Nat) : (a <<< n).toNat = a.toNat * 2 ^ n % 2 ^ w := by
  rw [BitVec.toNat_shiftLeft, Nat.shiftLeft_eq]

theorem toNat_shiftRight_eq_div (a : BitVec w) (n : Nat) : (a >>> n).toNat = a.toNat / 2 ^ n := by
  rw [BitVec.toNat_ushiftRight, Nat.shiftRight_eq_div_pow]

theorem sshiftRight_eq_ofInt_div (a : BitVec w) (n : Nat) : a.sshiftRight n = BitVec.ofInt w (a.toInt / 2 ^ n) := by
  rw [BitVec.sshiftRight_eq, Int.shiftRight_eq_div_pow]
  push_cast
  rfl

theorem lsh32_toNat (a b : BitVec 32) : (lsh32 a b).toNat = a.toNat * 2 ^ (b.toNat % 32) % 2 ^ 32 := by
  rw [lsh32, toNat_shiftLeft_eq_mul, shiftAmount32_eq]

theorem rsh32_toNat (a b : BitVec 32) : (rsh32 a b).toNat = a.toNat / 2 ^ (b.toNat % 32) := by
  rw [rsh32, toNat_shiftRight_eq_div, shiftAmount32_eq]

theorem arsh32_eq_ofInt (a b : BitVec 32) : arsh32 a b = BitVec.ofInt 32 (a.toInt / 2 ^ (b.toNat % 32)) := by
  rw [arsh32, sshiftRight_eq_ofInt_div, shiftAmount32_eq]

theorem lsh64_eq_ofNat (a b : Word) : lsh64 a b = BitVec.ofNat 64 (a.toNat * 2 ^ (b.toNat % 64)) := by
  apply BitVec.eq_of_toNat_eq
  rw [lsh64, toNat_shiftLeft_eq_mul, shiftAmount64_eq, BitVec.toNat_ofNat]

theorem rsh64_eq_ofNat (a b : Word) : rsh64 a b = BitVec.ofNat 64 (a.toNat / 2 ^ (b.toNat % 64)) := by
  rw [← shiftAmount64_eq, ← toNat_shiftRight_eq_div, BitVec.ofNat_toNat, BitVec.setWidth_eq, rsh64]

theorem arsh64_eq_ofInt (a b : Word) : arsh64 a b = BitVec.ofInt 64 (a.toInt / 2 ^ (b.toNat % 64)) := by
  rw [arsh64, sshiftRight_eq_ofInt_div, shiftAmount64_eq]

/-- The low 5 bits of a register are those of its low half (40_arith_alu.md R124). -/
theorem low_toNat_mod_32 (y : Word) : (y.setWidth 32).toNat % 32 = y.toNat % 32 := by
  rw [BitVec.toNat_setWidth]
  omega

/-- Sign extension keeps the low 6 bits of an immediate amount (41_arith_alu64.md R160, 92_eei_decisions.md D11). -/
theorem signExtend_toNat_mod_64 (imm : BitVec 32) : (imm.signExtend 64).toNat % 64 = imm.toNat % 64 := by
  rw [BitVec.toNat_signExtend, BitVec.toNat_setWidth_of_le (by decide)]
  split <;> omega

/-! ### Sign extension -/

/-- The low bits of a low half, sign-extended to 32 bits, in the integers (00_scope.md R10). -/
theorem signExtendLow_low_eq_ofInt {n : Nat} (hn : n ≤ 32) (y : Word) :
    signExtendLow n (y.setWidth 32) = BitVec.ofInt 32 (Int.bmod y.toNat (2 ^ n)) := by
  rw [signExtendLow, BitVec.setWidth_setWidth_of_le y hn, BitVec.signExtend, BitVec.toInt_setWidth]

end

/-! ### Arithmetic completes -/

section
variable {s : State} {i : Instr} {dst src : Reg} {imm : BitVec 32} {x y v : Word}

theorem alu32_k_completes {f : BitVec 32 → BitVec 32 → BitVec 32} (hx : s.reg dst = .holds x)
    (run : exec i s = alu32 f dst (.k imm) s) (basic : i.length = 1)
    (value : (f (x.setWidth 32) imm).setWidth 64 = v) : Completes i s dst v :=
  value ▸ completes_of_next (run.trans ((alu32_run hx).1 imm)) basic

theorem alu32_x_completes {f : BitVec 32 → BitVec 32 → BitVec 32} (hx : s.reg dst = .holds x)
    (hy : s.reg src = .holds y) (run : exec i s = alu32 f dst (.x src) s) (basic : i.length = 1)
    (value : (f (x.setWidth 32) (y.setWidth 32)).setWidth 64 = v) : Completes i s dst v :=
  value ▸ completes_of_next (run.trans ((alu32_run hx).2 src y hy)) basic

theorem alu64_k_completes {f : Word → Word → Word} (hx : s.reg dst = .holds x)
    (run : exec i s = alu64 f dst (.k imm) s) (basic : i.length = 1)
    (value : f x (imm.signExtend 64) = v) : Completes i s dst v :=
  value ▸ completes_of_next (run.trans ((alu64_run hx).1 imm)) basic

theorem alu64_x_completes {f : Word → Word → Word} (hx : s.reg dst = .holds x) (hy : s.reg src = .holds y)
    (run : exec i s = alu64 f dst (.x src) s) (basic : i.length = 1) (value : f x y = v) : Completes i s dst v :=
  value ▸ completes_of_next (run.trans ((alu64_run hx).2 src y hy)) basic

theorem move32_k_completes {f : BitVec 32 → BitVec 32} (run : exec i s = move32 f dst (.k imm) s)
    (basic : i.length = 1) (value : (f imm).setWidth 64 = v) : Completes i s dst v :=
  value ▸ completes_of_next run basic

theorem move32_x_completes {f : BitVec 32 → BitVec 32} (hy : s.reg src = .holds y)
    (run : exec i s = move32 f dst (.x src) s) (basic : i.length = 1)
    (value : (f (y.setWidth 32)).setWidth 64 = v) : Completes i s dst v :=
  value ▸ completes_of_next (run.trans (readOperand32_x hy _)) basic

end

/-! ### Class ALU sees low halves alone -/

section
variable {s s' t t' : State} {dst r : Reg} {i : Instr}

/-- The registers that hold values in both states agree in their low halves. -/
def SameLow (s s' : State) : Prop :=
  ∀ r v v', s.reg r = .holds v → s'.reg r = .holds v' → v.setWidth 32 = v'.setWidth 32

theorem readReg_sameLow {k k' : Word → Res} (low : SameLow s s') (h : readReg s r k = .next t)
    (h' : readReg s' r k' = .next t') :
    ∃ v v' : Word, v.setWidth 32 = v'.setWidth 32 ∧ k v = .next t ∧ k' v' = .next t' := by
  obtain ⟨v, hv, h⟩ := readReg_next h
  obtain ⟨v', hv', h'⟩ := readReg_next h'
  exact ⟨v, v', low r v v' hv hv', h, h'⟩

theorem readOperand32_sameLow {o : Operand} {k k' : BitVec 32 → Res} (low : SameLow s s')
    (h : readOperand32 s o k = .next t) (h' : readOperand32 s' o k' = .next t') :
    ∃ b, k b = .next t ∧ k' b = .next t' := by
  cases o with
  | k imm => exact ⟨imm, h, h'⟩
  | x src =>
    obtain ⟨v, v', hv, h, h'⟩ := readReg_sameLow low h h'
    exact ⟨v.setWidth 32, h, hv ▸ h'⟩

/-- Both states hold the same zero-extended 32-bit number in the register. -/
def SameResult (dst : Reg) (t t' : State) : Prop :=
  ∃ r : BitVec 32, t.reg dst = .holds (r.setWidth 64) ∧ t'.reg dst = .holds (r.setWidth 64)

theorem writeAndAdvance_sameResult {r : BitVec 32} (h : writeAndAdvance s dst (r.setWidth 64) = .next t)
    (h' : writeAndAdvance s' dst (r.setWidth 64) = .next t') : SameResult dst t t' :=
  ⟨r, (writeAndAdvance_next h).value, (writeAndAdvance_next h').value⟩

/-- The meanings of class ALU but the byte swaps: functions of 32-bit operands, the same in every state. -/
inductive LowForm (i : Instr) (dst : Reg) : Prop
  | binary {f o} (run : ∀ s, exec i s = alu32 f dst o s)
  | move {f o} (run : ∀ s, exec i s = move32 f dst o s)
  | negate (run : ∀ s, exec i s = unary (fun a => (-(a.setWidth 32)).setWidth 64) dst s)

/-- Every instruction of class ALU (opcode modulo 8 is 4) but the byte swaps (code 13) has one of these forms on the
register it names as written (30_encoding.md R86). -/
theorem lowForm_of_classAlu (hclass : i.fields.opcode.toNat % 8 = 4) (hswap : i.fields.opcode.toNat / 16 ≠ 13)
    (hdst : i.writesReg = some dst) : LowForm i dst := by
  cases i
  case addKAlu | addXAlu | subKAlu | subXAlu | mulKAlu | mulXAlu | divKAlu | divXAlu | sdivKAlu | sdivXAlu | orKAlu |
      orXAlu | andKAlu | andXAlu | lshKAlu | lshXAlu | rshKAlu | rshXAlu | modKAlu | modXAlu | smodKAlu | smodXAlu |
      xorKAlu | xorXAlu | arshKAlu | arshXAlu =>
    cases hdst
    exact .binary fun _ => rfl
  case movKAlu =>
    cases hdst
    exact .move (f := fun b => b) (o := .k _) fun _ => rfl
  case movXAlu =>
    cases hdst
    exact .move (f := fun b => b) (o := .x _) fun _ => rfl
  case movsx8XAlu | movsx16XAlu =>
    cases hdst
    exact .move (o := .x _) fun _ => rfl
  case negKAlu =>
    cases hdst
    exact .negate fun _ => rfl
  case endToLeAlu16 | endToLeAlu32 | endToLeAlu64 | endToBeAlu16 | endToBeAlu32 | endToBeAlu64 =>
    exact absurd (by simp [Instr.fields]) hswap
  all_goals simp [Instr.fields] at hclass

/-- From states with the same low halves, such an instruction leaves the same result. -/
theorem LowForm.sameResult (form : LowForm i dst) (low : SameLow s s') (h : exec i s = .next t)
    (h' : exec i s' = .next t') : SameResult dst t t' := by
  cases form with
  | binary run =>
    obtain ⟨a, a', ha, h, h'⟩ := readReg_sameLow low ((run s).symm.trans h) ((run s').symm.trans h')
    obtain ⟨b, h, h'⟩ := readOperand32_sameLow low h h'
    exact writeAndAdvance_sameResult h (ha ▸ h')
  | move run =>
    obtain ⟨b, h, h'⟩ := readOperand32_sameLow low ((run s).symm.trans h) ((run s').symm.trans h')
    exact writeAndAdvance_sameResult h h'
  | negate run =>
    obtain ⟨a, a', ha, h, h'⟩ := readReg_sameLow low ((run s).symm.trans h) ((run s').symm.trans h')
    simp only [← ha] at h'
    exact writeAndAdvance_sameResult h h'

end

end Sys2Proof.Proofs

namespace Sys2Proof.Proofs

open Machine

/-! ### The statements -/

/-- Settles O21: addition, subtraction and multiplication of 32-bit words wrap modulo 2^32. -/
theorem alu32AddSubtractMultiply : Obligations.Alu32AddSubtractMultiply := by
  intro s dst src imm x hx
  simp only [← BitVec.toNat_setWidth]
  refine ⟨alu32_k_completes hx rfl rfl (extended_eq_ofNat (BitVec.toNat_add _ _)),
    alu32_k_completes hx rfl rfl (extended_eq_ofNat (toNat_sub_wrapped _ _)),
    alu32_k_completes hx rfl rfl (extended_eq_ofNat (BitVec.toNat_mul _ _)), fun y hy => ⟨?_, ?_, ?_⟩⟩
  · exact alu32_x_completes hx hy rfl rfl (extended_eq_ofNat (BitVec.toNat_add _ _))
  · exact alu32_x_completes hx hy rfl rfl (extended_eq_ofNat (toNat_sub_wrapped _ _))
  · exact alu32_x_completes hx hy rfl rfl (extended_eq_ofNat (BitVec.toNat_mul _ _))

/-- Settles O22: `udiv` and `umod` of the low halves, with their zero divisors. -/
theorem alu32UnsignedDivideModulo : Obligations.Alu32UnsignedDivideModulo := by
  intro s dst src imm x hx
  simp only [← BitVec.toNat_setWidth]
  refine ⟨alu32_k_completes hx rfl rfl (extended_eq_ofNat (udiv_toNat _ _)),
    alu32_k_completes hx rfl rfl (extended_eq_ofNat (umod_toNat _ _)), fun y hy => ⟨?_, ?_⟩⟩
  · exact alu32_x_completes hx hy rfl rfl (extended_eq_ofNat (udiv_toNat _ _))
  · exact alu32_x_completes hx hy rfl rfl (extended_eq_ofNat (umod_toNat _ _))

/-- Settles O23: the low half of a bitwise result is the result on the low halves. -/
theorem alu32Bitwise : Obligations.Alu32Bitwise := by
  intro s dst src imm x hx
  have himm : (imm.setWidth 64).setWidth 32 = imm := by
    rw [BitVec.setWidth_setWidth_of_le imm (by decide), BitVec.setWidth_eq]
  simp only [and_lowMask, BitVec.setWidth_or, BitVec.setWidth_and, BitVec.setWidth_xor, himm]
  refine ⟨?_, ?_, ?_, fun y hy => ⟨?_, ?_, ?_⟩⟩
  · exact alu32_k_completes hx rfl rfl BitVec.setWidth_or
  · exact alu32_k_completes hx rfl rfl BitVec.setWidth_and
  · exact alu32_k_completes hx rfl rfl BitVec.setWidth_xor
  · exact alu32_x_completes hx hy rfl rfl BitVec.setWidth_or
  · exact alu32_x_completes hx hy rfl rfl BitVec.setWidth_and
  · exact alu32_x_completes hx hy rfl rfl BitVec.setWidth_xor

/-- Settles O27: moves read the source operand alone; NEG is `unary` on the low half. -/
theorem alu32MoveNegate : Obligations.Alu32MoveNegate := by
  intro s dst src imm
  refine ⟨move32_k_completes (f := fun b => b) rfl rfl (extended_eq_ofNat rfl), fun y hy => ⟨?_, ?_, ?_⟩,
    fun x hx => ?_⟩
  · exact move32_x_completes (f := fun b => b) hy rfl rfl (extended_eq_ofNat (BitVec.toNat_setWidth 32 y))
  · exact move32_x_completes hy rfl rfl (extended_eq_ofInt (signExtendLow_low_eq_ofInt (n := 8) (by decide) y))
  · exact move32_x_completes hy rfl rfl (extended_eq_ofInt (signExtendLow_low_eq_ofInt (n := 16) (by decide) y))
  · rw [← BitVec.toNat_setWidth, ← extended_eq_ofNat (BitVec.toNat_neg (x.setWidth 32))]
    exact completes_of_unary (i := .negKAlu dst) hx rfl rfl

/-- Settles O29: each shift shifts by the low bits of its operand, the same in an immediate and its sign extension, and
in a register and its low half. -/
theorem shiftsMaskTheAmount : Obligations.ShiftsMaskTheAmount := by
  intro s dst src imm x hx
  simp only [← BitVec.toNat_setWidth, ← BitVec.toInt_setWidth, ← signExtend_toNat_mod_64]
  refine ⟨?_, ?_, ?_, ?_, ?_, ?_, fun y hy => ?_⟩
  · exact alu32_k_completes hx rfl rfl (extended_eq_ofNat (lsh32_toNat _ _))
  · exact alu32_k_completes hx rfl rfl (extended_eq_ofNat (rsh32_toNat _ _))
  · exact alu32_k_completes hx rfl rfl (extended_eq_ofInt (arsh32_eq_ofInt _ _))
  · exact alu64_k_completes hx rfl rfl (lsh64_eq_ofNat _ _)
  · exact alu64_k_completes hx rfl rfl (rsh64_eq_ofNat _ _)
  · exact alu64_k_completes hx rfl rfl (arsh64_eq_ofInt _ _)
  rw [← low_toNat_mod_32 y]
  refine ⟨?_, ?_, ?_, ?_, ?_, ?_⟩
  · exact alu32_x_completes hx hy rfl rfl (extended_eq_ofNat (lsh32_toNat _ _))
  · exact alu32_x_completes hx hy rfl rfl (extended_eq_ofNat (rsh32_toNat _ _))
  · exact alu32_x_completes hx hy rfl rfl (extended_eq_ofInt (arsh32_eq_ofInt _ _))
  · exact alu64_x_completes hx hy rfl rfl (lsh64_eq_ofNat _ _)
  · exact alu64_x_completes hx hy rfl rfl (rsh64_eq_ofNat _ _)
  · exact alu64_x_completes hx hy rfl rfl (arsh64_eq_ofInt _ _)

/-- Settles O30: `sdiv` and `smod` at both widths; an immediate and its sign extension are the same integer. -/
theorem signedDivisionTruncates : Obligations.SignedDivisionTruncates := by
  intro s dst src imm x hx
  have himm : (imm.signExtend 64).toInt = imm.toInt := BitVec.toInt_signExtend_of_le (by decide)
  refine ⟨?_, ?_, ?_, ?_, fun y hy => ⟨?_, ?_, ?_, ?_⟩⟩
  · exact alu32_k_completes hx rfl rfl (extended_eq_ofInt (sdiv_eq_ofInt _ _))
  · exact alu32_k_completes hx rfl rfl (extended_eq_ofInt (smod_eq_ofInt _ _))
  · exact alu64_k_completes hx rfl rfl (himm ▸ sdiv_eq_ofInt x (imm.signExtend 64))
  · exact alu64_k_completes hx rfl rfl (himm ▸ smod_eq_ofInt x (imm.signExtend 64))
  · exact alu32_x_completes hx hy rfl rfl (extended_eq_ofInt (sdiv_eq_ofInt _ _))
  · exact alu32_x_completes hx hy rfl rfl (extended_eq_ofInt (smod_eq_ofInt _ _))
  · exact alu64_x_completes hx hy rfl rfl (sdiv_eq_ofInt _ _)
  · exact alu64_x_completes hx hy rfl rfl (smod_eq_ofInt _ _)

/-- Settles O31: the divisor an instruction tests is its operand at the width of the class, and each division at a zero
divisor is defined. -/
theorem zeroDivisorsAreDefined : Obligations.ZeroDivisorsAreDefined := by
  intro s dst src x hx
  have hwide : (0 : BitVec 32).signExtend 64 = 0 := by decide
  have hlow : (x.setWidth 32).setWidth 64 = BitVec.ofNat 64 (x.toNat % 2 ^ 32) :=
    extended_eq_ofNat (BitVec.toNat_setWidth 32 x)
  refine ⟨?_, ?_, ?_, ?_, ?_, ?_, ?_, ?_, fun y hy hzero => ?_, fun hy => ⟨?_, ?_, ?_, ?_⟩⟩
  · exact alu32_k_completes hx rfl rfl (by rw [udiv_zero]; rfl)
  · exact alu64_k_completes hx rfl rfl (by rw [hwide, udiv_zero])
  · exact alu32_k_completes hx rfl rfl (by rw [sdiv_zero]; rfl)
  · exact alu64_k_completes hx rfl rfl (by rw [hwide, sdiv_zero])
  · exact alu32_k_completes hx rfl rfl (by rw [umod_zero, hlow])
  · exact alu64_k_completes hx rfl rfl (by rw [hwide, umod_zero])
  · exact alu32_k_completes hx rfl rfl (by rw [smod_zero, hlow])
  · exact alu64_k_completes hx rfl rfl (by rw [hwide, smod_zero])
  · have hdivisor : y.setWidth 32 = 0 := toNat_eq_zero_iff.mp ((BitVec.toNat_setWidth 32 y).trans hzero)
    refine ⟨?_, ?_, ?_, ?_⟩
    · exact alu32_x_completes hx hy rfl rfl (by rw [hdivisor, udiv_zero]; rfl)
    · exact alu32_x_completes hx hy rfl rfl (by rw [hdivisor, sdiv_zero]; rfl)
    · exact alu32_x_completes hx hy rfl rfl (by rw [hdivisor, umod_zero, hlow])
    · exact alu32_x_completes hx hy rfl rfl (by rw [hdivisor, smod_zero, hlow])
  · exact alu64_x_completes hx hy rfl rfl (udiv_zero x)
  · exact alu64_x_completes hx hy rfl rfl (sdiv_zero x)
  · exact alu64_x_completes hx hy rfl rfl (umod_zero x)
  · exact alu64_x_completes hx hy rfl rfl (smod_zero x)

/-- Settles O32: each instruction of the class is a function of 32-bit operands that the low halves alone settle, and
its result is a 32-bit number zero-extended. -/
theorem alu32IgnoresUpperHalves : Obligations.Alu32IgnoresUpperHalves := by
  intro i dst s s' t t' hclass hswap hdst low h h'
  obtain ⟨r, hr, hr'⟩ := (lowForm_of_classAlu hclass hswap hdst).sameResult low h h'
  refine ⟨r.setWidth 64, ?_, hr, hr'⟩
  rw [BitVec.toNat_setWidth_of_le (by decide)]
  exact r.isLt

end Sys2Proof.Proofs
end

section
/-!
PROOFS. The arithmetic of class ALU64 (41_arith_alu64.md): 64-bit results, moves and sign extension.
-/
namespace Sys2Proof.Proofs

open Machine

/-! ### 64-bit results as numbers -/

/-- A 64-bit result that is a number modulo 2^64 is the register word of that number (40_arith_alu.md R121). -/
theorem wrapped_eq_ofNat {r : Word} {n : Nat} (h : r.toNat = n % 2 ^ 64) : r = BitVec.ofNat 64 n :=
  BitVec.eq_of_toNat_eq (h.trans (BitVec.toNat_ofNat n 64).symm)

/-- A 64-bit result is the register word of its number (41_arith_alu64.md R160). -/
theorem word_eq_ofNat {r : Word} {n : Nat} (h : r.toNat = n) : r = BitVec.ofNat 64 n :=
  wrapped_eq_ofNat (h ▸ (Nat.mod_eq_of_lt r.isLt).symm)

/-! ### Moves of class ALU64 complete -/

section
variable {s : State} {i : Instr} {dst src : Reg} {imm : BitVec 32} {y v : Word}

theorem move64_k_completes {f : Word → Word} (run : exec i s = move64 f dst (.k imm) s) (basic : i.length = 1)
    (value : f (imm.signExtend 64) = v) : Completes i s dst v :=
  value ▸ completes_of_next run basic

theorem move64_x_completes {f : Word → Word} (hy : s.reg src = .holds y)
    (run : exec i s = move64 f dst (.x src) s) (basic : i.length = 1) (value : f y = v) : Completes i s dst v :=
  value ▸ completes_of_next (run.trans (readOperand64_x hy _)) basic

end

end Sys2Proof.Proofs

namespace Sys2Proof.Proofs

open Machine

/-! ### The statements -/

/-- Settles O24: addition, subtraction and multiplication of 64-bit words wrap modulo 2^64; an immediate operand is
its sign extension. -/
theorem alu64AddSubtractMultiply : Obligations.Alu64AddSubtractMultiply := by
  intro s dst src imm x hx
  refine ⟨?_, ?_, ?_, fun y hy => ⟨?_, ?_, ?_⟩⟩
  · exact alu64_k_completes hx rfl rfl (wrapped_eq_ofNat (BitVec.toNat_add _ _))
  · exact alu64_k_completes hx rfl rfl (wrapped_eq_ofNat (toNat_sub_wrapped _ _))
  · exact alu64_k_completes hx rfl rfl (wrapped_eq_ofNat (BitVec.toNat_mul _ _))
  · exact alu64_x_completes hx hy rfl rfl (wrapped_eq_ofNat (BitVec.toNat_add _ _))
  · exact alu64_x_completes hx hy rfl rfl (wrapped_eq_ofNat (toNat_sub_wrapped _ _))
  · exact alu64_x_completes hx hy rfl rfl (wrapped_eq_ofNat (BitVec.toNat_mul _ _))

/-- Settles O25: `udiv` and `umod` of whole registers, with their zero divisors; an immediate divisor is its sign
extension read as unsigned. -/
theorem alu64UnsignedDivideModulo : Obligations.Alu64UnsignedDivideModulo := by
  intro s dst src imm x hx
  refine ⟨?_, ?_, fun y hy => ⟨?_, ?_⟩⟩
  · exact alu64_k_completes hx rfl rfl (word_eq_ofNat (udiv_toNat _ _))
  · exact alu64_k_completes hx rfl rfl (word_eq_ofNat (umod_toNat _ _))
  · exact alu64_x_completes hx hy rfl rfl (word_eq_ofNat (udiv_toNat _ _))
  · exact alu64_x_completes hx hy rfl rfl (word_eq_ofNat (umod_toNat _ _))

/-- Settles O26: each instruction is `alu64` of its bitwise operation, so no arithmetic is left. -/
theorem alu64Bitwise : Obligations.Alu64Bitwise := by
  intro s dst src imm x hx
  refine ⟨?_, ?_, ?_, fun y hy => ⟨?_, ?_, ?_⟩⟩
  · exact alu64_k_completes (f := fun a b => a ||| b) hx rfl rfl rfl
  · exact alu64_k_completes (f := fun a b => a &&& b) hx rfl rfl rfl
  · exact alu64_k_completes (f := fun a b => a ^^^ b) hx rfl rfl rfl
  · exact alu64_x_completes (f := fun a b => a ||| b) hx hy rfl rfl rfl
  · exact alu64_x_completes (f := fun a b => a &&& b) hx hy rfl rfl rfl
  · exact alu64_x_completes (f := fun a b => a ^^^ b) hx hy rfl rfl rfl

/-- Settles O28: moves read the source operand alone, whole or its low bits sign-extended; NEG is `unary` on the whole
register. -/
theorem alu64MoveNegate : Obligations.Alu64MoveNegate := by
  intro s dst src imm
  refine ⟨?_, fun y hy => ⟨?_, ?_, ?_, ?_⟩, fun x hx => ?_⟩
  · exact move64_k_completes (f := fun b => b) rfl rfl rfl
  · exact move64_x_completes (f := fun b => b) hy rfl rfl rfl
  · exact move64_x_completes hy rfl rfl (signExtendLow_eq_ofInt 8 y)
  · exact move64_x_completes hy rfl rfl (signExtendLow_eq_ofInt 16 y)
  · exact move64_x_completes hy rfl rfl (signExtendLow_eq_ofInt 32 y)
  · rw [← wrapped_eq_ofNat (BitVec.toNat_neg x)]
    exact completes_of_unary (i := .negKAlu64 dst) hx rfl rfl

end Sys2Proof.Proofs
end

section
/-!
PROOFS. Jumps, calls and EXIT (43_jump.md, 44_jump32.md).
-/
namespace Sys2Proof.Proofs

open Machine

/-! ### The conditions -/

section
variable {w : Nat} {a b : BitVec w}

theorem condEq_iff : condEq a b = true ↔ a = b := decide_eq_true_iff
theorem condNe_iff : condNe a b = true ↔ ¬a = b := decide_eq_true_iff
theorem condSet_iff : condSet a b = true ↔ a &&& b ≠ 0 := decide_eq_true_iff
theorem condGt_iff : condGt a b = true ↔ a.toNat > b.toNat := decide_eq_true_iff
theorem condGe_iff : condGe a b = true ↔ a.toNat ≥ b.toNat := decide_eq_true_iff
theorem condLt_iff : condLt a b = true ↔ a.toNat < b.toNat := decide_eq_true_iff
theorem condLe_iff : condLe a b = true ↔ a.toNat ≤ b.toNat := decide_eq_true_iff
theorem condSgt_iff : condSgt a b = true ↔ a.toInt > b.toInt := decide_eq_true_iff
theorem condSge_iff : condSge a b = true ↔ a.toInt ≥ b.toInt := decide_eq_true_iff
theorem condSlt_iff : condSlt a b = true ↔ a.toInt < b.toInt := decide_eq_true_iff
theorem condSle_iff : condSle a b = true ↔ a.toInt ≤ b.toInt := decide_eq_true_iff

/-- Common bits of the low half of a register with an immediate are common bits with the immediate zero-extended. -/
theorem low_and_ne_zero_iff (x : Word) (imm : BitVec 32) : x.setWidth 32 &&& imm ≠ 0 ↔ x &&& imm.setWidth 64 ≠ 0 := by
  have himm : (imm.setWidth 64).setWidth 32 = imm := by
    rw [BitVec.setWidth_setWidth_of_le imm (by decide), BitVec.setWidth_eq]
  have hlow : x.setWidth 32 &&& imm = (x &&& imm.setWidth 64).setWidth 32 := by
    rw [BitVec.setWidth_and, himm]
  have hbound : (x &&& imm.setWidth 64).toNat < 2 ^ 32 := by
    rw [BitVec.toNat_and, BitVec.toNat_setWidth_of_le (by decide)]
    exact Nat.and_lt_two_pow _ imm.isLt
  rw [hlow, ne_eq, ne_eq, ← toNat_eq_zero_iff, ← toNat_eq_zero_iff, BitVec.toNat_setWidth, Nat.mod_eq_of_lt hbound]

end

/-! ### Jumps -/

section
variable {s : State} {i : Instr} {dst src : Reg} {imm : BitVec 32} {offset : BitVec 16} {x y : Word} {p : Prop}

theorem jumps_of_run {d : Int} (run : exec i s = jump s d) : Jumps i s d := by
  refine ⟨fun legal => ⟨_, run.trans (if_pos legal), movedTo_pc s _⟩, fun illegal => run.trans (if_neg ?_)⟩
  exact Bool.eq_false_iff.mp illegal

theorem branches_of_run {taken : Bool} (run : exec i s = jumpIf s taken offset) (cond : taken = true ↔ p) :
    Branches i s p offset.toInt := by
  refine ⟨fun hp => jumps_of_run (run.trans (if_pos (cond.mpr hp))), fun hp => ?_⟩
  exact ⟨s.advance 1, run.trans (if_neg (mt cond.mp hp)), movedTo_pc s _⟩

theorem condJump64_k_branches {c : Word → Word → Bool} (hx : s.reg dst = .holds x)
    (run : exec i s = condJump64 c dst (.k imm) offset s) (cond : c x (imm.signExtend 64) = true ↔ p) :
    Branches i s p offset.toInt :=
  branches_of_run (run.trans ((condJump64_run hx offset).1 imm)) cond

theorem condJump64_x_branches {c : Word → Word → Bool} (hx : s.reg dst = .holds x) (hy : s.reg src = .holds y)
    (run : exec i s = condJump64 c dst (.x src) offset s) (cond : c x y = true ↔ p) : Branches i s p offset.toInt :=
  branches_of_run (run.trans ((condJump64_run hx offset).2 src y hy)) cond

theorem condJump32_k_branches {c : BitVec 32 → BitVec 32 → Bool} (hx : s.reg dst = .holds x)
    (run : exec i s = condJump32 c dst (.k imm) offset s) (cond : c (x.setWidth 32) imm = true ↔ p) :
    Branches i s p offset.toInt :=
  branches_of_run (run.trans ((condJump32_run hx offset).1 imm)) cond

theorem condJump32_x_branches {c : BitVec 32 → BitVec 32 → Bool} (hx : s.reg dst = .holds x)
    (hy : s.reg src = .holds y) (run : exec i s = condJump32 c dst (.x src) offset s)
    (cond : c (x.setWidth 32) (y.setWidth 32) = true ↔ p) : Branches i s p offset.toInt :=
  branches_of_run (run.trans ((condJump32_run hx offset).2 src y hy)) cond

end

/-! ### Legal targets -/

section
variable {text : List Slot} {n : Nat} {x : Slot}

@[simp] theorem legalTarget_natCast (text : List Slot) (n : Nat) : legalTarget text n = startsAt false text n := by
  simp [legalTarget]

theorem startsAt_zero_iff : startsAt false text 0 = true ↔ text ≠ [] := by
  cases text <;> simp [startsAt]

theorem legalTarget_outside {t : Int} (h : t < 0 ∨ (text.length : Int) ≤ t) : legalTarget text t = false := by
  refine Bool.eq_false_iff.mpr fun legal => ?_
  obtain ⟨hlow, _, hhigh⟩ := legalTarget_spec legal
  omega

/-- After a wide instruction comes its second half, which is no instruction start (10_state.md R26). -/
theorem startsAt_succ_of_wide (h : startsAt false text n = true) (hx : text[n]? = some x) (hw : x.b0 = 0x18) :
    startsAt false text (n + 1) = false := by
  by_cases hn : n + 1 < text.length
  · rw [startsAt_succ h hx hn, (isWide_iff x).mpr hw, Bool.not_true]
  · exact Bool.eq_false_iff.mpr fun hs => hn (startsAt_lt hs)

theorem startsAt_add_two_iff (h : startsAt false text n = true) (hx : text[n]? = some x) (hw : x.b0 = 0x18) :
    startsAt false text (n + 2) = true ↔ n + 2 < text.length :=
  ⟨startsAt_lt, startsAt_add_two h hx ((isWide_iff x).mpr hw)⟩

theorem startsAt_succ_iff (h : startsAt false text n = true) (hx : text[n]? = some x) (hb : x.b0 ≠ 0x18) :
    startsAt false text (n + 1) = true ↔ n + 1 < text.length := by
  have hbasic : x.isWide = false := Bool.eq_false_iff.mpr (mt (isWide_iff x).mp hb)
  refine ⟨startsAt_lt, fun hn => ?_⟩
  rw [startsAt_succ h hx hn, hbasic, Bool.not_false]

end

/-! ### Program-local calls -/

section
variable {s : State}

theorem callLocal_run {d : Int} (legal : legalTarget s.text (jumpTarget s d) = true)
    (room : s.cs.length < s.params.maxCallDepth) :
    callLocal s d = .next (enterFunction s (jumpTarget s d).toNat) := by
  rw [callLocal, if_pos legal, if_pos room]

theorem callLocal_badTarget {d : Int} (illegal : legalTarget s.text (jumpTarget s d) = false) :
    callLocal s d = .fault (.badJumpTarget s.pc (jumpTarget s d)) := by
  rw [callLocal, if_neg (Bool.eq_false_iff.mp illegal), raise]

theorem callLocal_full {d : Int} (legal : legalTarget s.text (jumpTarget s d) = true)
    (full : s.params.maxCallDepth ≤ s.cs.length) : callLocal s d = .fault (.callDepthExceeded s.pc) := by
  rw [callLocal, if_pos legal, if_neg (by omega), raise]

/-- Under `fresh_frame` a function has a frame pointer of its own, no value in R6 to R9, and R0 to R5 of its caller
(43_jump.md R224). -/
theorem enterFunction_reg_of_freshFrame (n : Nat) (hp : s.params.framePolicy = .freshFrame) (q : Reg) :
    (enterFunction s n).reg q =
      if q = .r10 then s.params.calleeFpAt (s.cs.length + 1)
      else if q ∈ [Reg.r6, .r7, .r8, .r9] then .unwritten else s.reg q := by
  simp only [State.reg, enterFunction, hp, Regs.get_set, Regs.get_forgetSaved]

theorem enterFunction_reg_of_none (n : Nat) (hp : s.params.framePolicy = .none) (q : Reg) :
    (enterFunction s n).reg q = s.reg q := by
  simp only [State.reg, enterFunction, hp]

/-- Frames are contiguous below the entry frame where the platform lists none (43_jump.md R224). -/
theorem calleeFpAt_default {p : Params} {top : Word} (d : Nat) (hlist : p.calleeFp = [])
    (htop : p.entryRegs.r10 = .holds top) : p.calleeFpAt d = .holds (top - BitVec.ofNat 64 (d * p.stackSize)) := by
  simp only [Params.calleeFpAt, hlist, htop, List.lookup_nil]

end

/-! ### EXIT -/

section
variable {s t : State} {f : Frame} {rest : List Frame} {sv : SavedRegs}

theorem sameMemory_of_eq (hm : t.mem = s.mem) (hp : t.params = s.params) (he : t.env = s.env) : SameMemory s t :=
  ⟨fun _ => by rw [hm], State.byteAt_congr hm hp he⟩

theorem exit_return (h : s.cs = f :: rest) : exit s = .next (leaveFunction s f rest) := by
  simp only [exit, h]

theorem exit_outermost (h : s.cs = []) :
    exit s = readReg s .r0 fun r => .next { s with status := .exited r } := by
  simp only [exit, h]

theorem leaveFunction_regs_of_saved (rest : List Frame) (h : f.saved = some sv) :
    (leaveFunction s f rest).regs = s.regs.forgetArgs.restore sv := by
  simp only [leaveFunction, h]

theorem leaveFunction_reg_of_none (rest : List Frame) (h : f.saved = none) (q : Reg) :
    (leaveFunction s f rest).reg q = s.reg q := by
  simp only [State.reg, leaveFunction, h]

theorem leaveFunction_r0 (rest : List Frame) (f : Frame) : (leaveFunction s f rest).reg .r0 = s.reg .r0 := by
  cases h : f.saved with
  | none => exact leaveFunction_reg_of_none rest h .r0
  | some sv => rw [State.reg, leaveFunction_regs_of_saved rest h]; rfl

/-- A return leaves the argument registers without a value (43_jump.md R224). -/
theorem leaveFunction_args (rest : List Frame) (h : f.saved = some sv) {q : Reg} (hq : q ∈ argRegs) :
    (leaveFunction s f rest).reg q = .unwritten := by
  rw [State.reg, leaveFunction_regs_of_saved rest h, Regs.get_restore_low _ _ (List.mem_cons_of_mem _ hq),
    Regs.get_forgetArgs, if_pos hq]

/-- Restoring what a register file saved gives back its R6 to R10 (43_jump.md R224). -/
theorem get_restore_toSave (x y : Regs) {q : Reg} (hq : q ∈ [Reg.r6, .r7, .r8, .r9, .r10]) :
    (x.restore y.toSave).get q = y.get q := by
  simp only [List.mem_cons, List.not_mem_nil, or_false] at hq
  obtain rfl | rfl | rfl | rfl | rfl := hq <;> rfl

end

/-! ### Helper calls -/

section
variable {s : State} {tb : HelperTable} {id : BitVec 32} {hp : Helper} {args : List Word}

theorem callHelper_run (listed : s.params.helper tb id = some hp)
    (held : (argRegs.take hp.nargs.val).map s.reg = args.map RegVal.holds) :
    callHelper s tb id = .next (afterHelper s (helperRun s tb id hp args)) := by
  simp only [callHelper, listed, readRegs_holds held]

/-- After a helper's run R0 holds the result and R1 to R5 no value; the others are kept (43_jump.md R223 (3) to
(5)). -/
theorem afterHelper_reg (o : HelperOutcome) (q : Reg) :
    (afterHelper s o).reg q =
      if q ∈ argRegs then .unwritten else if q = .r0 then .holds o.ret else s.reg q := by
  simp only [State.reg, afterHelper_regs, Regs.get_forgetArgs, Regs.get_set]

/-- A byte no helper may write is kept, as stored and as read (43_jump.md R223 (2)). -/
theorem afterHelper_memory_of_not_mayWrite (o : HelperOutcome) {a : Word}
    (h : ∀ sp ∈ s.params.helperMayWrite, sp.holds a.toNat = false) :
    Memory.find (afterHelper s o).mem a.toNat = Memory.find s.mem a.toNat ∧
      (afterHelper s o).byteAt a = s.byteAt a := by
  have hstored : Memory.find (afterHelper s o).mem a.toNat = Memory.find s.mem a.toNat := by
    by_contra hchange
    obtain ⟨sp, hsp, hlow, hhigh⟩ := afterHelper_changes hchange
    simpa [Span.holds, hlow, hhigh] using h sp hsp
  exact ⟨hstored, State.byteAt_of_find rfl rfl hstored⟩

end

end Sys2Proof.Proofs

namespace Sys2Proof.Proofs

open Machine

/-! ### The statements -/

/-- Settles O36: both forms are `jump` by their signed displacement. -/
theorem unconditionalJumpsByDisplacement : Obligations.UnconditionalJumpsByDisplacement :=
  fun _ _ _ => ⟨jumps_of_run rfl, jumps_of_run rfl⟩

/-- Settles O37: each condition is the comparison it decides; a sign-extended immediate is the same signed number. -/
theorem conditionalJumps64 : Obligations.ConditionalJumps64 := by
  intro s dst src imm offset x hx
  rw [← BitVec.toInt_signExtend_of_le (x := imm) (by decide : 32 ≤ 64)]
  refine ⟨?_, ?_, ?_, ?_, ?_, ?_, ?_, ?_, ?_, ?_, ?_, fun y hy => ⟨?_, ?_, ?_, ?_, ?_, ?_, ?_, ?_, ?_, ?_, ?_⟩⟩
  · exact condJump64_k_branches hx rfl condEq_iff
  · exact condJump64_k_branches hx rfl condNe_iff
  · exact condJump64_k_branches hx rfl condSet_iff
  · exact condJump64_k_branches hx rfl condGt_iff
  · exact condJump64_k_branches hx rfl condGe_iff
  · exact condJump64_k_branches hx rfl condLt_iff
  · exact condJump64_k_branches hx rfl condLe_iff
  · exact condJump64_k_branches hx rfl condSgt_iff
  · exact condJump64_k_branches hx rfl condSge_iff
  · exact condJump64_k_branches hx rfl condSlt_iff
  · exact condJump64_k_branches hx rfl condSle_iff
  · exact condJump64_x_branches hx hy rfl condEq_iff
  · exact condJump64_x_branches hx hy rfl condNe_iff
  · exact condJump64_x_branches hx hy rfl condSet_iff
  · exact condJump64_x_branches hx hy rfl condGt_iff
  · exact condJump64_x_branches hx hy rfl condGe_iff
  · exact condJump64_x_branches hx hy rfl condLt_iff
  · exact condJump64_x_branches hx hy rfl condLe_iff
  · exact condJump64_x_branches hx hy rfl condSgt_iff
  · exact condJump64_x_branches hx hy rfl condSge_iff
  · exact condJump64_x_branches hx hy rfl condSlt_iff
  · exact condJump64_x_branches hx hy rfl condSle_iff

/-- Settles O38: the same conditions on low halves, whose numbers are those of the registers modulo 2^32. -/
theorem conditionalJumps32 : Obligations.ConditionalJumps32 := by
  intro s dst src imm offset x hx
  simp only [← BitVec.toNat_setWidth, ← BitVec.toInt_setWidth, BitVec.toNat_inj]
  refine ⟨?_, ?_, ?_, ?_, ?_, ?_, ?_, ?_, ?_, ?_, ?_, fun y hy => ⟨?_, ?_, ?_, ?_, ?_, ?_, ?_, ?_, ?_, ?_, ?_⟩⟩
  · exact condJump32_k_branches hx rfl condEq_iff
  · exact condJump32_k_branches hx rfl condNe_iff
  · exact condJump32_k_branches hx rfl (condSet_iff.trans (low_and_ne_zero_iff x imm))
  · exact condJump32_k_branches hx rfl condGt_iff
  · exact condJump32_k_branches hx rfl condGe_iff
  · exact condJump32_k_branches hx rfl condLt_iff
  · exact condJump32_k_branches hx rfl condLe_iff
  · exact condJump32_k_branches hx rfl condSgt_iff
  · exact condJump32_k_branches hx rfl condSge_iff
  · exact condJump32_k_branches hx rfl condSlt_iff
  · exact condJump32_k_branches hx rfl condSle_iff
  · exact condJump32_x_branches hx hy rfl condEq_iff
  · exact condJump32_x_branches hx hy rfl condNe_iff
  · rw [BitVec.setWidth_and, ne_eq, toNat_eq_zero_iff]
    exact condJump32_x_branches hx hy rfl condSet_iff
  · exact condJump32_x_branches hx hy rfl condGt_iff
  · exact condJump32_x_branches hx hy rfl condGe_iff
  · exact condJump32_x_branches hx hy rfl condLt_iff
  · exact condJump32_x_branches hx hy rfl condLe_iff
  · exact condJump32_x_branches hx hy rfl condSgt_iff
  · exact condJump32_x_branches hx hy rfl condSge_iff
  · exact condJump32_x_branches hx hy rfl condSlt_iff
  · exact condJump32_x_branches hx hy rfl condSle_iff

/-- Settles O39: a legal target is a slot the scan starts an instruction at, and the opcode there says where the next
one starts. -/
theorem legalStartsByScan : Obligations.LegalStartsByScan := by
  intro text
  refine ⟨startsAt_zero_iff, fun t => legalTarget_outside, fun n x legal hx => ?_⟩
  rw [legalTarget_natCast] at legal
  refine ⟨fun wide => ⟨?_, ?_⟩, fun basic => ?_⟩
  · exact (legalTarget_natCast text (n + 1)).trans (startsAt_succ_of_wide legal hx wide)
  · exact (legalTarget_natCast text (n + 2)).symm ▸ startsAt_add_two_iff legal hx wide
  · exact (legalTarget_natCast text (n + 1)).symm ▸ startsAt_succ_iff legal hx basic

/-- Settles O40: the call enters the function at its target; what it finds there is `enterFunction_memory` and the
register file of its frame policy. -/
theorem callLocalCompletes : Obligations.CallLocalCompletes := by
  intro s imm legal room
  obtain ⟨reused, untouched⟩ := enterFunction_memory s (jumpTarget s imm.toInt).toNat
  refine ⟨_, callLocal_run legal room, enterFunction_pc _ _, enterFunction_deepest _ _, enterFunction_status _ _,
    enterFunction_text _ _, enterFunction_params _ _, enterFunction_env _ _, fun hp => ?_, fun hp => ?_, fun hp => ?_⟩
  · have hreg := enterFunction_reg_of_freshFrame (jumpTarget s imm.toInt).toNat hp
    have hr10 := enterFunction_r10 (jumpTarget s imm.toInt).toNat hp
    refine ⟨by rw [enterFunction_cs, if_pos hp]; rfl, ?_, ?_, hr10, fun top hlist htop => ?_⟩
    · simp [hreg]
    · simp [hreg]
    · rw [hr10, calleeFpAt_default _ hlist htop]
  · rw [enterFunction_r10 _ hp]
    exact ⟨fun first => untouched (.inr (.inl first)), reused hp, fun unknown => untouched (.inr (.inr unknown))⟩
  · refine ⟨?_, enterFunction_reg_of_none _ hp, untouched (.inl hp)⟩
    rw [enterFunction_cs, hp, if_neg (by decide)]

/-- Settles O41: the target is checked before the depth. -/
theorem callLocalFaults : Obligations.CallLocalFaults :=
  fun _ _ => ⟨callLocal_badTarget, callLocal_full⟩

/-- Settles O42: the return leaves memory and the rest of the state alone, and the registers as the frame says. -/
theorem exitReturnsToTheCaller : Obligations.ExitReturnsToTheCaller := by
  intro s f rest hcs
  refine ⟨_, exit_return hcs, leaveFunction_pc _ _ _, leaveFunction_cs _ _ _,
    sameMemory_of_eq (leaveFunction_mem _ _ _) (leaveFunction_params _ _ _) (leaveFunction_env _ _ _),
    leaveFunction_status _ _ _, leaveFunction_text _ _ _, leaveFunction_params _ _ _, leaveFunction_env _ _ _,
    leaveFunction_deepest _ _ _, fun sv hsv => ?_, leaveFunction_reg_of_none rest⟩
  refine ⟨leaveFunction_r0 rest f, fun r => leaveFunction_args rest hsv, ?_⟩
  simp only [State.reg, leaveFunction_regs_of_saved rest hsv]
  exact ⟨rfl, rfl, rfl, rfl, rfl⟩

/-- Settles O43: with no frame on the call stack EXIT reads R0 and records it in the status. -/
theorem outermostExitEndsTheRun : Obligations.OutermostExitEndsTheRun := by
  intro s hcs
  refine ⟨fun r hr => ?_, fun hr => (exit_outermost hcs).trans (readReg_unwritten hr _)⟩
  exact ⟨_, (exit_outermost hcs).trans (readReg_holds hr _), rfl, rfl, hcs, fun _ => rfl,
    sameMemory_of_eq rfl rfl rfl, rfl, rfl, rfl, rfl⟩

/-- Settles O44: the call pushed the caller's next slot and R6 to R10, and the return gives back what was pushed. -/
theorem calleeSavedAcrossFunction : Obligations.CalleeSavedAcrossFunction := by
  intro s t u imm hp hcall hstack
  obtain ⟨_, _, rfl⟩ := callLocal_next hcall
  rw [enterFunction_cs, if_pos hp] at hstack
  refine ⟨_, exit_return hstack, leaveFunction_pc _ _ _, leaveFunction_cs _ _ _, leaveFunction_r0 _ _, fun r hr => ?_⟩
  rw [State.reg, leaveFunction_regs_of_saved s.cs rfl]
  exact get_restore_toSave _ s.regs hr

/-- Settles O45: both calls are `callHelper` by their table; a listed case gives one of its outcomes, and what a run
writes is limited to where helpers may write. -/
theorem helperCallCompletes : Obligations.HelperCallCompletes := by
  intro s tb imm h args listed held
  have run := callHelper_run listed held
  refine ⟨afterHelper s (helperRun s tb imm h args), (helperRun s tb imm h args).ret, ?_, rfl, ?_, ?_, rfl,
    ⟨rfl, rfl, rfl, rfl, rfl, rfl⟩, fun a => afterHelper_memory_of_not_mayWrite _, fun c hc => ?_⟩
  · cases tb with
    | static => exact run
    | btf => exact run
  · exact fun r hr => (afterHelper_reg _ r).trans (if_pos hr)
  · simp [afterHelper_reg, argRegs]
  · exact ⟨_, helperRun_known hc, rfl, rfl⟩

end Sys2Proof.Proofs
end

section
/-!
PROOFS. The 64-bit immediates (47_imm64.md): the constant, the platform's addresses, and the map values.
-/
namespace Sys2Proof.Proofs

open Machine

variable {s : State} {i : Instr} {dst : Reg} {v : Word}

/-- A two-slot instruction that ends by writing `v` to `dst` completes with it (47_imm64.md R350). -/
theorem completes_of_writeWide (run : exec i s = writeWide s dst v) (wide : i.length = 2) : Completes i s dst v :=
  ⟨_, run, wide ▸ wroteReg_setReg s dst v 2⟩

/-- A wide load from a platform function completes with the address the function gives (60_exceptions.md R390). -/
theorem completes_of_writeResolved {kind : PlatformRef} {imm : BitVec 32} {found : Option Word}
    (defined : found = some v) (run : exec i s = writeResolved s dst kind imm found) (wide : i.length = 2) :
    Completes i s dst v := by
  subst defined
  exact completes_of_writeWide run wide

/-- The two halves of a wide constant, `next_imm` above `imm` (47_imm64.md R351). -/
theorem wideConstant_eq_ofNat (nextImm imm : BitVec 32) :
    nextImm ++ imm = BitVec.ofNat 64 (nextImm.toNat * 2 ^ 32 + imm.toNat) := by
  rw [← toNat_append_eq, BitVec.ofNat_toNat, BitVec.setWidth_eq]

/-- The address of a byte inside a map's value: the address of the first value plus the offset, sign-extended
(47_imm64.md R353, R357, R358). -/
theorem mapValue_offset {p : Params} {map : Option Word} {m : Word} (hmap : map = some m)
    (hval : p.mapVal.lookup m = some v) (nextImm : BitVec 32) :
    (p.mapValue map).map (fun v => v + nextImm.signExtend 64) = some (v + BitVec.ofInt 64 nextImm.toInt) := by
  simp only [hmap, Params.mapValue, hval, Option.map_some, BitVec.signExtend]

end Sys2Proof.Proofs

namespace Sys2Proof.Proofs

open Machine

/-- Settles O57: subtype 0 writes the two halves of its constant; each other subtype writes what its platform function
gives, which for subtypes 2 and 6 is offset from the map's first value. -/
theorem wideLoadsComplete : Obligations.WideLoadsComplete := by
  intro s dst imm nextImm
  refine ⟨?_, fun a hmap => ⟨?_, fun v hval => ?_⟩, fun a hvar => ?_, fun a hcode => ?_,
    fun a hmap => ⟨?_, fun v hval => ?_⟩⟩
  · exact wideConstant_eq_ofNat nextImm imm ▸ completes_of_writeWide (i := .immDwLd0 dst imm nextImm) rfl rfl
  · exact completes_of_writeResolved hmap rfl rfl
  · exact completes_of_writeResolved (mapValue_offset hmap hval nextImm) rfl rfl
  · exact completes_of_writeResolved hvar rfl rfl
  · exact completes_of_writeResolved hcode rfl rfl
  · exact completes_of_writeResolved hmap rfl rfl
  · exact completes_of_writeResolved (mapValue_offset hmap hval nextImm) rfl rfl

end Sys2Proof.Proofs
end

section
/-!
PROOFS. The legacy packet instructions (48_packet.md): when their group is supported, and how each of them stops.
-/
namespace Sys2Proof.Proofs

open Machine

variable {s : State} {i : Instr}

/-- No group includes packet: it is supported where it is listed itself (00_scope.md R2). -/
theorem supports_packet_iff (p : Params) : p.supports .packet = true ↔ .packet ∈ p.groups := by
  simp [Params.supports, ConformanceGroup.within]

/-- Where the group is supported, the run is refused (48_packet.md R365, 60_exceptions.md R391 (a)). -/
theorem packet_refused (listed : .packet ∈ s.params.groups) : packet i s = .refused .packetSemanticsNotInSource :=
  if_pos ((supports_packet_iff _).2 listed)

/-- Where it is not, the instruction is illegal, with its canonical word (48_packet.md R365). -/
theorem packet_illegal (unlisted : .packet ∉ s.params.groups) :
    packet i s = .fault (.illegalInstruction s.pc (encode i).1 none) :=
  if_neg fun supported => unlisted ((supports_packet_iff _).1 supported)

/-- The six instructions of the family mean `packet` (48_packet.md R366 to R371). -/
theorem exec_eq_packet {src : Reg} {imm : BitVec 32} (s : State)
    (hi : i ∈ [.absWLd imm, .absHLd imm, .absBLd imm, .indWLd src imm, .indHLd src imm, .indBLd src imm]) :
    exec i s = packet i s := by
  simp only [List.mem_cons, List.not_mem_nil, or_false] at hi
  obtain rfl | rfl | rfl | rfl | rfl | rfl := hi <;> rfl

end Sys2Proof.Proofs

namespace Sys2Proof.Proofs

open Machine

/-- Settles O59: each of the six is `packet`, which refuses or faults by whether its group is listed. -/
theorem packetInstructionsStop : Obligations.PacketInstructionsStop := by
  intro s i src imm hi
  rw [exec_eq_packet s hi]
  exact ⟨packet_refused, packet_illegal⟩

end Sys2Proof.Proofs
end

section
/-!
PROOFS. The faults (60_exceptions.md): how a run ends without one, the fetches that fail, the arithmetic that never
faults, the accesses not admitted, the unknown helpers, and the platform objects that do not exist.
-/
namespace Sys2Proof.Proofs

open Machine

/-! ### How a run ends -/

section
variable {s t : State} {i : Instr}

/-- Only the outermost EXIT changes the run status (10_state.md R34, 43_jump.md R251). -/
theorem Effect.status_cases (h : Effect i s t) :
    t.status = s.status ∨
      (i = .exitKJmp ∧ s.cs = [] ∧ ∃ r, s.reg .r0 = .holds r ∧ t = { s with status := .exited r }) := by
  cases h with
  | wrote | stored | exchanged | helped | jumped | passed => exact .inl rfl
  | entered => exact .inl (enterFunction_status _ _)
  | left => exact .inl (leaveFunction_status _ _ _)
  | ended which stack result => exact .inr ⟨which, stack, _, result, rfl⟩

end

/-! ### Fetches that fail -/

section
variable {s : State} {x : Slot}

theorem fetch_of_past_end (h : s.text.length ≤ s.pc) : fetch s = .error (.fetchOutOfProgram s.pc) := by
  simp only [fetch, List.getElem?_eq_none h]

/-- The wide opcode without a second slot (30_encoding.md R98 (3)). -/
theorem decodeSlots_of_cut_off (e : Endian) (wide : x.b0 = 0x18) : decodeSlots e x none = .error .truncated := by
  simp [decodeSlots, decode, decodeLd, wide]

theorem fetch_of_truncated (hx : s.text[s.pc]? = some x)
    (hd : decodeSlots s.params.hostEndian x s.text[s.pc + 1]? = .error .truncated) :
    fetch s = .error (.fetchOutOfProgram s.pc) := by
  simp only [fetch, hx, hd]

/-- A slot that does not decode is an illegal instruction, unless it is a wide one cut off (30_encoding.md R98 (4)). -/
theorem fetch_of_decode_error {err : DecodeError} (hx : s.text[s.pc]? = some x)
    (hd : decodeSlots s.params.hostEndian x s.text[s.pc + 1]? = .error err) (hne : err ≠ .truncated) :
    fetch s = .error (fetch.illegal s s.pc x s.text[s.pc + 1]?) := by
  cases err with
  | truncated => exact absurd rfl hne
  | unknownOpcode | badSelector | unusedField | badRegister => simp only [fetch, hx, hd]

/-- The fault of a basic word records that word alone (60_exceptions.md R382). -/
theorem illegal_of_basic (pc : Nat) (next : Option Slot) (basic : x.b0 ≠ 0x18) :
    fetch.illegal s pc x next = .illegalInstruction pc (x.fields s.params.hostEndian).word none := by
  rw [fetch.illegal, if_neg (mt (isWide_iff x).mp basic)]

/-- The fault of a wide word records the second word too (60_exceptions.md R382). -/
theorem illegal_of_wide (pc : Nat) (next : Slot) (wide : x.b0 = 0x18) :
    fetch.illegal s pc x (some next) = .illegalInstruction pc (x.fields s.params.hostEndian).word
      (some (next.fields s.params.hostEndian).word) := by
  rw [fetch.illegal, if_pos ((isWide_iff x).mpr wide), Option.map_some]

/-- The machine does not execute an instruction of a group it does not support, nor one that would write a read-only
R10 (30_encoding.md R98 (5)). -/
theorem not_wellFormed_of_unsupported_or_readOnly {p : Params} {i : Instr}
    (h : p.supports i.group = false ∨ i.writesReg = some .r10 ∧ p.r10Readonly = true) : i.wellFormed p = false := by
  obtain unsupported | ⟨writes, readonly⟩ := h
  · simp [Instr.wellFormed, unsupported]
  · simp [Instr.wellFormed, Instr.writesReadOnly, writes, readonly]

end

/-! ### Arithmetic -/

section
variable {s : State} {i : Instr} {o : Operand}

/-- Every register of the list holds a value. -/
def AllHeld (s : State) (rs : List Reg) : Prop := ∀ r ∈ rs, ∃ v, s.reg r = .holds v

theorem allHeld_cons {r : Reg} {rs : List Reg} : AllHeld s (r :: rs) ↔ (∃ v, s.reg r = .holds v) ∧ AllHeld s rs :=
  List.forall_mem_cons

/-- A source operand whose register holds a value has one, whatever is done with it. -/
theorem readOperand32_of_held (held : AllHeld s (operandReads o)) : ∃ b, ∀ k, readOperand32 s o k = k b := by
  cases o with
  | k imm => exact ⟨imm, fun _ => rfl⟩
  | x src =>
    obtain ⟨⟨y, hy⟩, _⟩ := allHeld_cons.mp held
    exact ⟨_, readOperand32_x hy⟩

theorem readOperand64_of_held (held : AllHeld s (operandReads o)) : ∃ b, ∀ k, readOperand64 s o k = k b := by
  cases o with
  | k imm => exact ⟨_, fun _ => rfl⟩
  | x src =>
    obtain ⟨⟨y, hy⟩, _⟩ := allHeld_cons.mp held
    exact ⟨_, readOperand64_x hy⟩

/-- The instruction is of class ALU or ALU64 (30_encoding.md R86). -/
def IsArithmetic (i : Instr) : Prop := i.fields.opcode.toNat % 8 = 4 ∨ i.fields.opcode.toNat % 8 = 7

/-- An instruction of the arithmetic classes names a register it writes, makes no memory access, is no jump and fills
one slot (30_encoding.md R86, R93). -/
theorem IsArithmetic.profile (h : IsArithmetic i) :
    ∃ dst, Profile i (readsOf i) (some dst) none false 1 := by
  cases i
  case addKAlu | addXAlu | subKAlu | subXAlu | mulKAlu | mulXAlu | divKAlu | divXAlu | sdivKAlu | sdivXAlu | orKAlu |
      orXAlu | andKAlu | andXAlu | lshKAlu | lshXAlu | rshKAlu | rshXAlu | negKAlu | modKAlu | modXAlu | smodKAlu |
      smodXAlu | xorKAlu | xorXAlu | movKAlu | movXAlu | movsx8XAlu | movsx16XAlu | arshKAlu | arshXAlu |
      endToLeAlu16 | endToLeAlu32 | endToLeAlu64 | endToBeAlu16 | endToBeAlu32 | endToBeAlu64 =>
    exact ⟨_, rfl, rfl, rfl, rfl, rfl⟩
  case addKAlu64 | addXAlu64 | subKAlu64 | subXAlu64 | mulKAlu64 | mulXAlu64 | divKAlu64 | divXAlu64 | sdivKAlu64 |
      sdivXAlu64 | orKAlu64 | orXAlu64 | andKAlu64 | andXAlu64 | lshKAlu64 | lshXAlu64 | rshKAlu64 | rshXAlu64 |
      negKAlu64 | modKAlu64 | modXAlu64 | smodKAlu64 | smodXAlu64 | xorKAlu64 | xorXAlu64 | movKAlu64 | movXAlu64 |
      movsx8XAlu64 | movsx16XAlu64 | movsx32XAlu64 | arshKAlu64 | arshXAlu64 | endAlu64Swap16 | endAlu64Swap32 |
      endAlu64Swap64 =>
    exact ⟨_, rfl, rfl, rfl, rfl, rfl⟩
  all_goals simp [IsArithmetic, Instr.fields] at h

/-- With a value in every register it reads, an arithmetic instruction completes (60_exceptions.md R402). -/
theorem IsArithmetic.completes (h : IsArithmetic i) (held : AllHeld s (readsOf i)) :
    ∃ dst v, i.writesReg = some dst ∧ Completes i s dst v := by
  obtain ⟨dst, _, writes, request, jumps, slots⟩ := h.profile
  cases hasForm i s with
  | alu32 run p =>
    obtain ⟨⟨x, hx⟩, hrest⟩ := allHeld_cons.mp (p.reads ▸ held)
    obtain ⟨b, hb⟩ := readOperand32_of_held hrest
    exact ⟨_, _, p.writes, completes_of_next (run.trans ((readReg_holds hx _).trans (hb _))) p.slots⟩
  | alu64 run p =>
    obtain ⟨⟨x, hx⟩, hrest⟩ := allHeld_cons.mp (p.reads ▸ held)
    obtain ⟨b, hb⟩ := readOperand64_of_held hrest
    exact ⟨_, _, p.writes, completes_of_next (run.trans ((readReg_holds hx _).trans (hb _))) p.slots⟩
  | move32 run p =>
    obtain ⟨b, hb⟩ := readOperand32_of_held (p.reads ▸ held)
    exact ⟨_, _, p.writes, completes_of_next (run.trans (hb _)) p.slots⟩
  | move64 run p =>
    obtain ⟨b, hb⟩ := readOperand64_of_held (p.reads ▸ held)
    exact ⟨_, _, p.writes, completes_of_next (run.trans (hb _)) p.slots⟩
  | unary run p =>
    obtain ⟨⟨x, hx⟩, _⟩ := allHeld_cons.mp (p.reads ▸ held)
    exact ⟨_, _, p.writes, completes_of_unary hx run p.slots⟩
  | jump _ p | condJump64 _ p | condJump32 _ p | callLocal _ _ p | exit _ _ p => cases jumps.symm.trans p.jumps
  | load _ p | storeImm _ p | storeReg _ p | atomic _ p | atomicFetch _ p | atomicCmpxchg _ p =>
    cases request.symm.trans p.request
  | wide _ p | resolved _ p => cases slots.symm.trans p.slots
  | helper _ _ p | packet _ p => cases writes.symm.trans p.writes

end

/-! ### Accesses that are not admitted -/

section
variable {s : State} {i : Instr} {q : MemRequest} {base : Word}

/-- The registers are read before the access is checked, and nothing comes between (60_exceptions.md R387, R392). -/
theorem exec_of_not_admitted (hq : requestOf i = some q) (held : AllHeld s (readsOf i))
    (hbase : s.reg q.base = .holds base)
    (refused : s.params.accessOk (effectiveAddr base q.offset) q.size q.kind = false) :
    exec i s = .fault (.memoryNotAdmitted s.pc (effectiveAddr base q.offset) q.size q.kind) := by
  cases hasForm i s with
  | load run p | storeImm run p =>
    cases hq.symm.trans p.request
    exact run.trans ((readReg_holds hbase _).trans (checkAccess_bad refused _))
  | storeReg run p | atomic run p | atomicFetch run p =>
    cases hq.symm.trans p.request
    obtain ⟨_, hrest⟩ := allHeld_cons.mp (p.reads ▸ held)
    obtain ⟨⟨y, hy⟩, _⟩ := allHeld_cons.mp hrest
    exact run.trans ((readReg_holds hbase _).trans ((readReg_holds hy _).trans (checkAccess_bad refused _)))
  | atomicCmpxchg run p =>
    cases hq.symm.trans p.request
    obtain ⟨_, hrest⟩ := allHeld_cons.mp (p.reads ▸ held)
    obtain ⟨⟨y, hy⟩, hr0⟩ := allHeld_cons.mp hrest
    obtain ⟨⟨e, he⟩, _⟩ := allHeld_cons.mp hr0
    exact run.trans ((readReg_holds hbase _).trans ((readReg_holds hy _).trans
      ((readReg_holds he _).trans (checkAccess_bad refused _))))
  | alu32 _ p | alu64 _ p | move32 _ p | move64 _ p | unary _ p | jump _ p | condJump64 _ p | condJump32 _ p
  | wide _ p | resolved _ p | helper _ _ p | callLocal _ _ p | exit _ _ p | packet _ p =>
    cases hq.symm.trans p.request

end

/-! ### Unknown helpers -/

section
variable {s : State} {tb : HelperTable} {id : BitVec 32}

/-- A table has no entry for a key exactly if it lists no value under it. -/
theorem lookup_eq_none_iff_not_mem {l : List (BitVec 32 × Helper)} : l.lookup id = none ↔ ∀ h, (id, h) ∉ l := by
  rw [List.lookup_eq_none_iff]
  refine ⟨fun differ h listed => ?_, fun unlisted e listed => ?_⟩
  · simpa using differ (id, h) listed
  · simp only [bne_iff_ne]
    rintro rfl
    exact unlisted e.2 listed

/-- Reading registers before going on to a next state faults only for a register that holds no value. -/
theorem readRegs_fault {rs : List Reg} {k : List Word → State} {f : Fault}
    (h : readRegs s rs (fun vs => .next (k vs)) = .fault f) : ∃ r, f = .unwrittenRegister s.pc r := by
  induction rs generalizing k with
  | nil => cases h
  | cons r rs ih =>
    cases hr : s.reg r with
    | holds v => exact ih (k := fun vs => k (v :: vs)) ((readReg_holds hr _).symm.trans h)
    | unwritten =>
      cases (readReg_unwritten hr _).symm.trans h
      exact ⟨r, rfl⟩

/-- A helper call raises `UnknownHelper` exactly where the lookup fails (60_exceptions.md R388). -/
theorem callHelper_unknown_iff :
    callHelper s tb id = .fault (.unknownHelper s.pc id tb) ↔ s.params.helper tb id = none := by
  cases hl : s.params.helper tb id with
  | none => simp only [callHelper, hl, raise]
  | some hp =>
    refine iff_of_false (fun h => ?_) (Option.some_ne_none hp)
    simp only [callHelper, hl] at h
    obtain ⟨r, hf⟩ := readRegs_fault h
    cases hf

end

/-! ### Platform objects that do not exist -/

section
variable {s : State} {dst : Reg} {kind : PlatformRef} {imm : BitVec 32}

theorem writeResolved_undefined {found : Option Word} (undefined : found = none) :
    writeResolved s dst kind imm found = .fault (.unresolvedPlatformRef s.pc kind imm) := by
  rw [undefined, writeResolved, raise]

/-- A map that does not exist, or has no value region, has no value address (47_imm64.md R353, R357). -/
theorem mapValue_undefined {p : Params} {map : Option Word} (h : ∀ m, map = some m → p.mapVal.lookup m = none) :
    p.mapValue map = none := by
  cases map with
  | none => rfl
  | some m => exact h m rfl

end

end Sys2Proof.Proofs

namespace Sys2Proof.Proofs

open Machine

/-! ### The statements -/

/-- Settles O19: a step is taken by a running machine, and of the effects of the instruction it fetched the outermost
EXIT alone changes the status. -/
theorem runEndsOnlyByOutermostExit : Obligations.RunEndsOnlyByOutermostExit := by
  intro s t h
  obtain ⟨running, _⟩ := step_next h
  obtain ⟨i, u, hf, he, rfl⟩ := step_effect h
  obtain same | ⟨rfl, hcs, r, hr, rfl⟩ := he.status_cases
  · exact .inl (same.trans running)
  · exact .inr ⟨hf, hcs, rfl, r, hr, rfl⟩

/-- Settles O9: the fetch answers `fetch.illegal` both where the decoder rejects the slot and where the machine does not
execute what it decodes to. -/
theorem illegalWordFaults : Obligations.IllegalWordFaults := by
  intro s x hr hx hbad
  have hfetch : fetch s = .error (fetch.illegal s s.pc x s.text[s.pc + 1]?) := by
    obtain ⟨err, hd, hne⟩ | ⟨i, hd, hbad⟩ := hbad
    · exact fetch_of_decode_error hx hd hne
    · exact fetch_of_not_wellFormed hx hd (not_wellFormed_of_unsupported_or_readOnly hbad)
  rw [step_of_fetch_error hr hfetch]
  refine ⟨fun basic => ?_, fun second wide hsecond => ?_⟩
  · rw [illegal_of_basic _ _ basic]
  · rw [hsecond, illegal_of_wide _ _ wide]

/-- Settles O33: every instruction of the two classes is one of five operations, each of which only reads its registers
and writes its result. -/
theorem arithmeticNeverFaultsOnValues : Obligations.ArithmeticNeverFaultsOnValues := by
  intro i s (hclass : IsArithmetic i) held
  exact hclass.completes held

/-- Settles O46: both calls are `callHelper` by their table, and a call of a listed helper faults only for an argument
register that holds no value. -/
theorem unknownHelperFaults : Obligations.UnknownHelperFaults :=
  fun _ _ => ⟨callHelper_unknown_iff.trans lookup_eq_none_iff_not_mem,
    callHelper_unknown_iff.trans lookup_eq_none_iff_not_mem⟩

/-- Settles O54: an instruction that makes a request is one of six operations, and each checks the access right after
its registers. -/
theorem memoryNotAdmittedFaults : Obligations.MemoryNotAdmittedFaults := by
  intro i s q base hq held hbase refused
  exact exec_of_not_admitted hq held hbase refused

/-- Settles O8: past the end there is no slot, and at the last slot a wide opcode decodes as cut off. -/
theorem fetchOutOfProgramFaults : Obligations.FetchOutOfProgramFaults := by
  intro s hr
  refine ⟨fun hpast => step_of_fetch_error hr (fetch_of_past_end hpast), fun x hx wide hlast => ?_⟩
  have hnone : s.text[s.pc + 1]? = none := List.getElem?_eq_none hlast.le
  exact step_of_fetch_error hr (fetch_of_truncated hx (hnone ▸ decodeSlots_of_cut_off _ wide))

/-- Settles O58: each subtype is `writeResolved` of its platform function, which for subtypes 2 and 6 is the value
region of a map. -/
theorem unresolvedPlatformRefFaults : Obligations.UnresolvedPlatformRefFaults := by
  intro s dst imm nextImm
  refine ⟨writeResolved_undefined, fun h => ?_, writeResolved_undefined, writeResolved_undefined,
    writeResolved_undefined, fun h => ?_⟩
  · exact writeResolved_undefined (Option.map_eq_none_iff.mpr (mapValue_undefined h))
  · exact writeResolved_undefined (Option.map_eq_none_iff.mpr (mapValue_undefined h))

end Sys2Proof.Proofs
end
